-- ==== Sys2Proof/Word.lean ====
section
/-!
DEFINITION. The two word types of the machine (spec/00_scope.md R10, R12) and their plainest assembly:
a byte is 8 bits, a word 16 bits, `hi : lo` puts the first byte above the second.
-/
namespace Sys2Proof

/-- A byte, 8 bits (R12). -/
abbrev Byte := BitVec 8

/-- A word, 16 bits: a CPU-bus address or a 16-bit value (R12). -/
abbrev Word := BitVec 16

/-- A picture-unit address, 14 bits (R10, R86). -/
abbrev PpuAddr := BitVec 14

/-- `a : b` of R12: the word whose high byte is `a` and whose low byte is `b`. -/
def Byte.pair (h l : Byte) : Word := h ++ l

/-- `hi(w) = w[15:8]` (R12). -/
def Word.hi (w : Word) : Byte := w.extractLsb' 8 8

/-- `lo(w) = w[7:0]` (R12). -/
def Word.lo (w : Word) : Byte := w.extractLsb' 0 8

/-- `zext_16(v)` of R13. -/
def Byte.zext (v : Byte) : Word := v.setWidth 16

/-- `sext_8(v)` of R13, as a word to be added modulo 65536. -/
def Byte.sext (v : Byte) : Word := v.signExtend 16

end Sys2Proof
end

