-- ==== Sys2Proof/Config.lean ====
section
/-!
DEFINITION. What the spec leaves open, as constants with no body (spec/00_scope.md R11): the two open
parameters `BRK_SETS_I` and `MMC1_POWERON_MIRRORING`, and the three oracles. Nothing can evaluate one of
these or prove a value of it, so every theorem holds for every value ("Oracles are draws: each call may
return any byte, and the model's claims hold for every answer"). The number an oracle is applied to is
the count of draws made so far (`State.draws`), so that two calls need not agree.
The other parameters of R11 (`CART`, `INIT_RAM`, `INIT_VRAM`, `INIT_CHRRAM`, `INIT_PRGRAM`) are arguments
of `Machine.powerOn`.
-/
namespace Sys2Proof.Config

/-- `BRK_SETS_I` (R11, R393; D22): whether BRK sets InterruptDisable. Log entry 1. -/
opaque brkSetsI : Bool

/-- `MMC1_POWERON_MIRRORING` (R11, R143; D53): bits 1:0 of the MMC1 control register at power-on. Log entry 2. -/
opaque mmc1PowerOnMirroring : BitVec 2

/-- `PpuRegRead(slot)` (R11, R80; D31): what the picture unit answers at the given draw. Log entry 3. -/
opaque ppuRegRead (draw : Nat) (slot : BitVec 3) : Byte

/-- `IoRead(addr)` (R11, R81; D32): what the audio/IO collaborator answers at the given draw. Log entry 3. -/
opaque ioRead (draw : Nat) (addr : Word) : Byte

/-- `PaletteRead(addr)` (R11, R91; D36): what the picture unit's palette answers at the given draw. Log entry 3. -/
opaque paletteRead (draw : Nat) (addr : PpuAddr) : Byte

/-- What reading an operand that does not exist would give. R265: "unreachable (no operation with mode imp
calls it)"; no meaning of the model reaches it. Log entry 4. -/
opaque noOperandByte : Byte

/-- The address of an operand that has none; unreachable as `noOperandByte` is. Log entry 4. -/
opaque noOperandAddress : Word

end Sys2Proof.Config
end

