-- ==== Sys2Proof/Syntax.lean ====
section
/-!
DEFINITION. The instruction set as syntax (spec/30_encoding.md R230, R231, R238): one constructor of `Instr`
per row of the opcode table, its arguments the row's operand bytes (a word is `byte 2 : byte 1`, R232); the
operand forms and the names of the 13 addressing modes (R231); the operation names of the table; and the
shape of a descriptor (R233). The constructor of a row is its mnemonic and its mode; where several rows have
both in common, the opcode byte (two hexadecimal digits) is added for all but the official one.
-/
namespace Sys2Proof

/-- The 13 addressing modes (R231). -/
inductive Mode where
  | imp | acc | imm | zp | zpx | zpy | abs | absx | absy | indx | indy | rel | ind
  deriving DecidableEq, Repr

/-- The length in bytes of an instruction of a mode: the mode alone fixes it (R230, R231). -/
def Mode.length : Mode → Nat
  | .imp => 1
  | .acc => 1
  | .imm => 2
  | .zp => 2
  | .zpx => 2
  | .zpy => 2
  | .abs => 3
  | .absx => 3
  | .absy => 3
  | .indx => 2
  | .indy => 2
  | .rel => 2
  | .ind => 3

/-- An operand as the instruction bytes give it (R231, R232): the mode with its operand byte or word. -/
inductive Operand where
  | imp
  | acc
  | imm (v : Byte)
  | zp (z : Byte)
  | zpx (z : Byte)
  | zpy (z : Byte)
  | abs (w : Word)
  | absx (w : Word)
  | absy (w : Word)
  | indx (z : Byte)
  | indy (z : Byte)
  | rel (o : Byte)
  | ind (w : Word)
  deriving DecidableEq, Repr

/-- The mode of an operand. -/
def Operand.mode : Operand → Mode
  | .imp => .imp
  | .acc => .acc
  | .imm _ => .imm
  | .zp _ => .zp
  | .zpx _ => .zpx
  | .zpy _ => .zpy
  | .abs _ => .abs
  | .absx _ => .absx
  | .absy _ => .absy
  | .indx _ => .indx
  | .indy _ => .indy
  | .rel _ => .rel
  | .ind _ => .ind

/-- The operation of a row: the mnemonics of the table (R238, R240). `nop` and `sbc` are the official and the
unofficial rows of that name, which the rows' classes tell apart. -/
inductive Operation where
  | brk | ora | asl | php | bpl | clc | jsr | and | bit | rol | plp | bmi
  | sec | rti | eor | lsr | pha | jmp | bvc | cli | rts | adc | ror | pla
  | bvs | sei | sta | sty | stx | dey | txa | bcc | tya | txs | ldy | lda
  | ldx | tay | tax | bcs | clv | tsx | cpy | cmp | dec | iny | dex | bne
  | cld | cpx | sbc | inc | inx | nop | beq | sed | slo | anc | rla | sre
  | alr | rra | arr | sax | lax | dcp | axs | isc | jam | xaa | sha | tas
  | shy | shx | lxa | las
  deriving DecidableEq, Repr

/-- The class of a row (R234). -/
inductive RowClass where
  | official | unofficial | unsupported
  deriving DecidableEq, Repr

/-- A descriptor (R233): operation, addressing mode, base cycle cost, page-penalty flag, read-modify-write
flag, and the class of the row (R234). The cost of an unsupported row is `none`: "the row faults before any
cost is added" (R238). -/
structure Desc where
  operation : Operation
  mode : Mode
  cycles : Option Nat
  pagePenalty : Bool
  rmw : Bool
  cls : RowClass
  deriving DecidableEq, Repr

/-- The instructions, one constructor per row of the opcode table (R238): first the rows with operand bytes,
then those without, each in the table's order. -/
inductive Instr where
  | oraIndx (z : Byte)
  | sloIndx (z : Byte)
  | nopZp04 (z : Byte)
  | oraZp (z : Byte)
  | aslZp (z : Byte)
  | sloZp (z : Byte)
  | oraImm (v : Byte)
  | ancImm0B (v : Byte)
  | nopAbs (w : Word)
  | oraAbs (w : Word)
  | aslAbs (w : Word)
  | sloAbs (w : Word)
  | bpl (o : Byte)
  | oraIndy (z : Byte)
  | sloIndy (z : Byte)
  | nopZpx14 (z : Byte)
  | oraZpx (z : Byte)
  | aslZpx (z : Byte)
  | sloZpx (z : Byte)
  | oraAbsy (w : Word)
  | sloAbsy (w : Word)
  | nopAbsx1C (w : Word)
  | oraAbsx (w : Word)
  | aslAbsx (w : Word)
  | sloAbsx (w : Word)
  | jsr (w : Word)
  | andIndx (z : Byte)
  | rlaIndx (z : Byte)
  | bitZp (z : Byte)
  | andZp (z : Byte)
  | rolZp (z : Byte)
  | rlaZp (z : Byte)
  | andImm (v : Byte)
  | ancImm2B (v : Byte)
  | bitAbs (w : Word)
  | andAbs (w : Word)
  | rolAbs (w : Word)
  | rlaAbs (w : Word)
  | bmi (o : Byte)
  | andIndy (z : Byte)
  | rlaIndy (z : Byte)
  | nopZpx34 (z : Byte)
  | andZpx (z : Byte)
  | rolZpx (z : Byte)
  | rlaZpx (z : Byte)
  | andAbsy (w : Word)
  | rlaAbsy (w : Word)
  | nopAbsx3C (w : Word)
  | andAbsx (w : Word)
  | rolAbsx (w : Word)
  | rlaAbsx (w : Word)
  | eorIndx (z : Byte)
  | sreIndx (z : Byte)
  | nopZp44 (z : Byte)
  | eorZp (z : Byte)
  | lsrZp (z : Byte)
  | sreZp (z : Byte)
  | eorImm (v : Byte)
  | alr (v : Byte)
  | jmpAbs (w : Word)
  | eorAbs (w : Word)
  | lsrAbs (w : Word)
  | sreAbs (w : Word)
  | bvc (o : Byte)
  | eorIndy (z : Byte)
  | sreIndy (z : Byte)
  | nopZpx54 (z : Byte)
  | eorZpx (z : Byte)
  | lsrZpx (z : Byte)
  | sreZpx (z : Byte)
  | eorAbsy (w : Word)
  | sreAbsy (w : Word)
  | nopAbsx5C (w : Word)
  | eorAbsx (w : Word)
  | lsrAbsx (w : Word)
  | sreAbsx (w : Word)
  | adcIndx (z : Byte)
  | rraIndx (z : Byte)
  | nopZp64 (z : Byte)
  | adcZp (z : Byte)
  | rorZp (z : Byte)
  | rraZp (z : Byte)
  | adcImm (v : Byte)
  | arr (v : Byte)
  | jmpInd (w : Word)
  | adcAbs (w : Word)
  | rorAbs (w : Word)
  | rraAbs (w : Word)
  | bvs (o : Byte)
  | adcIndy (z : Byte)
  | rraIndy (z : Byte)
  | nopZpx74 (z : Byte)
  | adcZpx (z : Byte)
  | rorZpx (z : Byte)
  | rraZpx (z : Byte)
  | adcAbsy (w : Word)
  | rraAbsy (w : Word)
  | nopAbsx7C (w : Word)
  | adcAbsx (w : Word)
  | rorAbsx (w : Word)
  | rraAbsx (w : Word)
  | nopImm80 (v : Byte)
  | staIndx (z : Byte)
  | nopImm82 (v : Byte)
  | saxIndx (z : Byte)
  | styZp (z : Byte)
  | staZp (z : Byte)
  | stxZp (z : Byte)
  | saxZp (z : Byte)
  | nopImm89 (v : Byte)
  | xaa (v : Byte)
  | styAbs (w : Word)
  | staAbs (w : Word)
  | stxAbs (w : Word)
  | saxAbs (w : Word)
  | bcc (o : Byte)
  | staIndy (z : Byte)
  | shaIndy (z : Byte)
  | styZpx (z : Byte)
  | staZpx (z : Byte)
  | stxZpy (z : Byte)
  | saxZpy (z : Byte)
  | staAbsy (w : Word)
  | tas (w : Word)
  | shy (w : Word)
  | staAbsx (w : Word)
  | shx (w : Word)
  | shaAbsy (w : Word)
  | ldyImm (v : Byte)
  | ldaIndx (z : Byte)
  | ldxImm (v : Byte)
  | laxIndx (z : Byte)
  | ldyZp (z : Byte)
  | ldaZp (z : Byte)
  | ldxZp (z : Byte)
  | laxZp (z : Byte)
  | ldaImm (v : Byte)
  | lxa (v : Byte)
  | ldyAbs (w : Word)
  | ldaAbs (w : Word)
  | ldxAbs (w : Word)
  | laxAbs (w : Word)
  | bcs (o : Byte)
  | ldaIndy (z : Byte)
  | laxIndy (z : Byte)
  | ldyZpx (z : Byte)
  | ldaZpx (z : Byte)
  | ldxZpy (z : Byte)
  | laxZpy (z : Byte)
  | ldaAbsy (w : Word)
  | las (w : Word)
  | ldyAbsx (w : Word)
  | ldaAbsx (w : Word)
  | ldxAbsy (w : Word)
  | laxAbsy (w : Word)
  | cpyImm (v : Byte)
  | cmpIndx (z : Byte)
  | nopImmC2 (v : Byte)
  | dcpIndx (z : Byte)
  | cpyZp (z : Byte)
  | cmpZp (z : Byte)
  | decZp (z : Byte)
  | dcpZp (z : Byte)
  | cmpImm (v : Byte)
  | axs (v : Byte)
  | cpyAbs (w : Word)
  | cmpAbs (w : Word)
  | decAbs (w : Word)
  | dcpAbs (w : Word)
  | bne (o : Byte)
  | cmpIndy (z : Byte)
  | dcpIndy (z : Byte)
  | nopZpxD4 (z : Byte)
  | cmpZpx (z : Byte)
  | decZpx (z : Byte)
  | dcpZpx (z : Byte)
  | cmpAbsy (w : Word)
  | dcpAbsy (w : Word)
  | nopAbsxDC (w : Word)
  | cmpAbsx (w : Word)
  | decAbsx (w : Word)
  | dcpAbsx (w : Word)
  | cpxImm (v : Byte)
  | sbcIndx (z : Byte)
  | nopImmE2 (v : Byte)
  | iscIndx (z : Byte)
  | cpxZp (z : Byte)
  | sbcZp (z : Byte)
  | incZp (z : Byte)
  | iscZp (z : Byte)
  | sbcImm (v : Byte)
  | sbcImmEB (v : Byte)
  | cpxAbs (w : Word)
  | sbcAbs (w : Word)
  | incAbs (w : Word)
  | iscAbs (w : Word)
  | beq (o : Byte)
  | sbcIndy (z : Byte)
  | iscIndy (z : Byte)
  | nopZpxF4 (z : Byte)
  | sbcZpx (z : Byte)
  | incZpx (z : Byte)
  | iscZpx (z : Byte)
  | sbcAbsy (w : Word)
  | iscAbsy (w : Word)
  | nopAbsxFC (w : Word)
  | sbcAbsx (w : Word)
  | incAbsx (w : Word)
  | iscAbsx (w : Word)
  | brk
  | jam02
  | php
  | aslAcc
  | jam12
  | clc
  | nop1A
  | jam22
  | plp
  | rolAcc
  | jam32
  | sec
  | nop3A
  | rti
  | jam42
  | pha
  | lsrAcc
  | jam52
  | cli
  | nop5A
  | rts
  | jam62
  | pla
  | rorAcc
  | jam72
  | sei
  | nop7A
  | dey
  | txa
  | jam92
  | tya
  | txs
  | tay
  | tax
  | jamB2
  | clv
  | tsx
  | iny
  | dex
  | jamD2
  | cld
  | nopDA
  | inx
  | nop
  | jamF2
  | sed
  | nopFA
  deriving DecidableEq, Repr

/-- A source line (R240): an operation and its operand, for a branch with the address of the branch and its
target ("the assembler computes `o = target - (address of the branch + 2)`"). -/
inductive Asm where
  | line (op : Operation) (operand : Operand)
  | branch (op : Operation) (address target : Word)
  deriving DecidableEq, Repr

end Sys2Proof
end

