-- ==== Sys2Proof/WellFormed.lean ====
section
/-!
DEFINITION. Well-formedness. Every argument of a constructor of `Instr` has exactly the width of the operand
bytes it stands for, so every term of `Instr` is well-formed and there is nothing to check. What can be
ill-formed is a source line (spec/30_encoding.md R240, R241): an operation in a mode the table has no row for
("there is no `LDX zp,X`", R301; "No immediate form", R303), or a branch whose target lies out of reach ("must
lie in -128..127", R240). `Asm.wf` refuses both.
-/
namespace Sys2Proof

/-- The modes of an operation, as its instruction rule lists them (R300 to R452). -/
def Operation.modes : Operation → List Mode
  | .brk => [.imp]
  | .ora => [.indx, .zp, .imm, .abs, .indy, .zpx, .absy, .absx]
  | .asl => [.zp, .acc, .abs, .zpx, .absx]
  | .php => [.imp]
  | .bpl => [.rel]
  | .clc => [.imp]
  | .jsr => [.abs]
  | .and => [.indx, .zp, .imm, .abs, .indy, .zpx, .absy, .absx]
  | .bit => [.zp, .abs]
  | .rol => [.zp, .acc, .abs, .zpx, .absx]
  | .plp => [.imp]
  | .bmi => [.rel]
  | .sec => [.imp]
  | .rti => [.imp]
  | .eor => [.indx, .zp, .imm, .abs, .indy, .zpx, .absy, .absx]
  | .lsr => [.zp, .acc, .abs, .zpx, .absx]
  | .pha => [.imp]
  | .jmp => [.abs, .ind]
  | .bvc => [.rel]
  | .cli => [.imp]
  | .rts => [.imp]
  | .adc => [.indx, .zp, .imm, .abs, .indy, .zpx, .absy, .absx]
  | .ror => [.zp, .acc, .abs, .zpx, .absx]
  | .pla => [.imp]
  | .bvs => [.rel]
  | .sei => [.imp]
  | .sta => [.indx, .zp, .abs, .indy, .zpx, .absy, .absx]
  | .sty => [.zp, .abs, .zpx]
  | .stx => [.zp, .abs, .zpy]
  | .dey => [.imp]
  | .txa => [.imp]
  | .bcc => [.rel]
  | .tya => [.imp]
  | .txs => [.imp]
  | .ldy => [.imm, .zp, .abs, .zpx, .absx]
  | .lda => [.indx, .zp, .imm, .abs, .indy, .zpx, .absy, .absx]
  | .ldx => [.imm, .zp, .abs, .zpy, .absy]
  | .tay => [.imp]
  | .tax => [.imp]
  | .bcs => [.rel]
  | .clv => [.imp]
  | .tsx => [.imp]
  | .cpy => [.imm, .zp, .abs]
  | .cmp => [.indx, .zp, .imm, .abs, .indy, .zpx, .absy, .absx]
  | .dec => [.zp, .abs, .zpx, .absx]
  | .iny => [.imp]
  | .dex => [.imp]
  | .bne => [.rel]
  | .cld => [.imp]
  | .cpx => [.imm, .zp, .abs]
  | .sbc => [.indx, .zp, .imm, .abs, .indy, .zpx, .absy, .absx]
  | .inc => [.zp, .abs, .zpx, .absx]
  | .inx => [.imp]
  | .nop => [.zp, .abs, .zpx, .imp, .absx, .imm]
  | .beq => [.rel]
  | .sed => [.imp]
  | .slo => [.indx, .zp, .abs, .indy, .zpx, .absy, .absx]
  | .anc => [.imm]
  | .rla => [.indx, .zp, .abs, .indy, .zpx, .absy, .absx]
  | .sre => [.indx, .zp, .abs, .indy, .zpx, .absy, .absx]
  | .alr => [.imm]
  | .rra => [.indx, .zp, .abs, .indy, .zpx, .absy, .absx]
  | .arr => [.imm]
  | .sax => [.indx, .zp, .abs, .zpy]
  | .lax => [.indx, .zp, .abs, .indy, .zpy, .absy]
  | .dcp => [.indx, .zp, .abs, .indy, .zpx, .absy, .absx]
  | .axs => [.imm]
  | .isc => [.indx, .zp, .abs, .indy, .zpx, .absy, .absx]
  | .jam => [.imp]
  | .xaa => [.imm]
  | .sha => [.indy, .absy]
  | .tas => [.absy]
  | .shy => [.absx]
  | .shx => [.absy]
  | .lxa => [.imm]
  | .las => [.absy]

/-- The offset byte of a branch at `address` to `target` (R240), where it lies in -128..127. R240 writes no modulo;
the difference is taken modulo 65536, as the branch itself adds (R380), so a target across 0xFFFF/0x0000 can be in
reach. DESIGN CHOICE, log entry 18. -/
def branchOffset (address target : Word) : Option Byte :=
  let o := target - (address + 2)
  if -128 ≤ o.toInt ∧ o.toInt ≤ 127 then some (o.setWidth 8) else none

/-- Whether a source line stands for a row of the table (R240, R241). A line that names an unsupported row is one
too (log entry 17). -/
def Asm.wf : Asm → Bool
  | .line op operand => operand.mode != .rel && op.modes.contains operand.mode
  | .branch op address target => op.modes.contains .rel && (branchOffset address target).isSome

end Sys2Proof
end

