-- ==== Sys2Proof/Decode.lean ====
section
/-!
DEFINITION. The opcode table and the decoder (spec/30_encoding.md R230 to R239, spec/40_engine_addressing.md
R262), and the encoder, written from the same table: `desc` is the descriptor table of R238, `decode` reads one
instruction from a list of bytes and answers it with the rest, `encode` gives the bytes of an instruction.
"A decoder learns the length of an instruction from its first byte" (R230), and every one of the 256 opcode
bytes has a row (R234), so decoding is refused only for want of bytes.
-/
namespace Sys2Proof

/-! ### The descriptor table (R238), sixteen rows a piece -/

/-- Descriptors 0x00 to 0x0F (R238). -/
def descRow0 : Vector Desc 16 := #v[
  ⟨.brk, .imp, some 7, false, false, .official⟩,
  ⟨.ora, .indx, some 6, false, false, .official⟩,
  ⟨.jam, .imp, none, false, false, .unsupported⟩,
  ⟨.slo, .indx, some 8, false, true, .unofficial⟩,
  ⟨.nop, .zp, some 3, false, false, .unofficial⟩,
  ⟨.ora, .zp, some 3, false, false, .official⟩,
  ⟨.asl, .zp, some 5, false, true, .official⟩,
  ⟨.slo, .zp, some 5, false, true, .unofficial⟩,
  ⟨.php, .imp, some 3, false, false, .official⟩,
  ⟨.ora, .imm, some 2, false, false, .official⟩,
  ⟨.asl, .acc, some 2, false, false, .official⟩,
  ⟨.anc, .imm, some 2, false, false, .unofficial⟩,
  ⟨.nop, .abs, some 4, false, false, .unofficial⟩,
  ⟨.ora, .abs, some 4, false, false, .official⟩,
  ⟨.asl, .abs, some 6, false, true, .official⟩,
  ⟨.slo, .abs, some 6, false, true, .unofficial⟩]

/-- Descriptors 0x10 to 0x1F (R238). -/
def descRow1 : Vector Desc 16 := #v[
  ⟨.bpl, .rel, some 2, false, false, .official⟩,
  ⟨.ora, .indy, some 5, true, false, .official⟩,
  ⟨.jam, .imp, none, false, false, .unsupported⟩,
  ⟨.slo, .indy, some 8, false, true, .unofficial⟩,
  ⟨.nop, .zpx, some 4, false, false, .unofficial⟩,
  ⟨.ora, .zpx, some 4, false, false, .official⟩,
  ⟨.asl, .zpx, some 6, false, true, .official⟩,
  ⟨.slo, .zpx, some 6, false, true, .unofficial⟩,
  ⟨.clc, .imp, some 2, false, false, .official⟩,
  ⟨.ora, .absy, some 4, true, false, .official⟩,
  ⟨.nop, .imp, some 2, false, false, .unofficial⟩,
  ⟨.slo, .absy, some 7, false, true, .unofficial⟩,
  ⟨.nop, .absx, some 4, true, false, .unofficial⟩,
  ⟨.ora, .absx, some 4, true, false, .official⟩,
  ⟨.asl, .absx, some 7, false, true, .official⟩,
  ⟨.slo, .absx, some 7, false, true, .unofficial⟩]

/-- Descriptors 0x20 to 0x2F (R238). -/
def descRow2 : Vector Desc 16 := #v[
  ⟨.jsr, .abs, some 6, false, false, .official⟩,
  ⟨.and, .indx, some 6, false, false, .official⟩,
  ⟨.jam, .imp, none, false, false, .unsupported⟩,
  ⟨.rla, .indx, some 8, false, true, .unofficial⟩,
  ⟨.bit, .zp, some 3, false, false, .official⟩,
  ⟨.and, .zp, some 3, false, false, .official⟩,
  ⟨.rol, .zp, some 5, false, true, .official⟩,
  ⟨.rla, .zp, some 5, false, true, .unofficial⟩,
  ⟨.plp, .imp, some 4, false, false, .official⟩,
  ⟨.and, .imm, some 2, false, false, .official⟩,
  ⟨.rol, .acc, some 2, false, false, .official⟩,
  ⟨.anc, .imm, some 2, false, false, .unofficial⟩,
  ⟨.bit, .abs, some 4, false, false, .official⟩,
  ⟨.and, .abs, some 4, false, false, .official⟩,
  ⟨.rol, .abs, some 6, false, true, .official⟩,
  ⟨.rla, .abs, some 6, false, true, .unofficial⟩]

/-- Descriptors 0x30 to 0x3F (R238). -/
def descRow3 : Vector Desc 16 := #v[
  ⟨.bmi, .rel, some 2, false, false, .official⟩,
  ⟨.and, .indy, some 5, true, false, .official⟩,
  ⟨.jam, .imp, none, false, false, .unsupported⟩,
  ⟨.rla, .indy, some 8, false, true, .unofficial⟩,
  ⟨.nop, .zpx, some 4, false, false, .unofficial⟩,
  ⟨.and, .zpx, some 4, false, false, .official⟩,
  ⟨.rol, .zpx, some 6, false, true, .official⟩,
  ⟨.rla, .zpx, some 6, false, true, .unofficial⟩,
  ⟨.sec, .imp, some 2, false, false, .official⟩,
  ⟨.and, .absy, some 4, true, false, .official⟩,
  ⟨.nop, .imp, some 2, false, false, .unofficial⟩,
  ⟨.rla, .absy, some 7, false, true, .unofficial⟩,
  ⟨.nop, .absx, some 4, true, false, .unofficial⟩,
  ⟨.and, .absx, some 4, true, false, .official⟩,
  ⟨.rol, .absx, some 7, false, true, .official⟩,
  ⟨.rla, .absx, some 7, false, true, .unofficial⟩]

/-- Descriptors 0x40 to 0x4F (R238). -/
def descRow4 : Vector Desc 16 := #v[
  ⟨.rti, .imp, some 6, false, false, .official⟩,
  ⟨.eor, .indx, some 6, false, false, .official⟩,
  ⟨.jam, .imp, none, false, false, .unsupported⟩,
  ⟨.sre, .indx, some 8, false, true, .unofficial⟩,
  ⟨.nop, .zp, some 3, false, false, .unofficial⟩,
  ⟨.eor, .zp, some 3, false, false, .official⟩,
  ⟨.lsr, .zp, some 5, false, true, .official⟩,
  ⟨.sre, .zp, some 5, false, true, .unofficial⟩,
  ⟨.pha, .imp, some 3, false, false, .official⟩,
  ⟨.eor, .imm, some 2, false, false, .official⟩,
  ⟨.lsr, .acc, some 2, false, false, .official⟩,
  ⟨.alr, .imm, some 2, false, false, .unofficial⟩,
  ⟨.jmp, .abs, some 3, false, false, .official⟩,
  ⟨.eor, .abs, some 4, false, false, .official⟩,
  ⟨.lsr, .abs, some 6, false, true, .official⟩,
  ⟨.sre, .abs, some 6, false, true, .unofficial⟩]

/-- Descriptors 0x50 to 0x5F (R238). -/
def descRow5 : Vector Desc 16 := #v[
  ⟨.bvc, .rel, some 2, false, false, .official⟩,
  ⟨.eor, .indy, some 5, true, false, .official⟩,
  ⟨.jam, .imp, none, false, false, .unsupported⟩,
  ⟨.sre, .indy, some 8, false, true, .unofficial⟩,
  ⟨.nop, .zpx, some 4, false, false, .unofficial⟩,
  ⟨.eor, .zpx, some 4, false, false, .official⟩,
  ⟨.lsr, .zpx, some 6, false, true, .official⟩,
  ⟨.sre, .zpx, some 6, false, true, .unofficial⟩,
  ⟨.cli, .imp, some 2, false, false, .official⟩,
  ⟨.eor, .absy, some 4, true, false, .official⟩,
  ⟨.nop, .imp, some 2, false, false, .unofficial⟩,
  ⟨.sre, .absy, some 7, false, true, .unofficial⟩,
  ⟨.nop, .absx, some 4, true, false, .unofficial⟩,
  ⟨.eor, .absx, some 4, true, false, .official⟩,
  ⟨.lsr, .absx, some 7, false, true, .official⟩,
  ⟨.sre, .absx, some 7, false, true, .unofficial⟩]

/-- Descriptors 0x60 to 0x6F (R238). -/
def descRow6 : Vector Desc 16 := #v[
  ⟨.rts, .imp, some 6, false, false, .official⟩,
  ⟨.adc, .indx, some 6, false, false, .official⟩,
  ⟨.jam, .imp, none, false, false, .unsupported⟩,
  ⟨.rra, .indx, some 8, false, true, .unofficial⟩,
  ⟨.nop, .zp, some 3, false, false, .unofficial⟩,
  ⟨.adc, .zp, some 3, false, false, .official⟩,
  ⟨.ror, .zp, some 5, false, true, .official⟩,
  ⟨.rra, .zp, some 5, false, true, .unofficial⟩,
  ⟨.pla, .imp, some 4, false, false, .official⟩,
  ⟨.adc, .imm, some 2, false, false, .official⟩,
  ⟨.ror, .acc, some 2, false, false, .official⟩,
  ⟨.arr, .imm, some 2, false, false, .unofficial⟩,
  ⟨.jmp, .ind, some 5, false, false, .official⟩,
  ⟨.adc, .abs, some 4, false, false, .official⟩,
  ⟨.ror, .abs, some 6, false, true, .official⟩,
  ⟨.rra, .abs, some 6, false, true, .unofficial⟩]

/-- Descriptors 0x70 to 0x7F (R238). -/
def descRow7 : Vector Desc 16 := #v[
  ⟨.bvs, .rel, some 2, false, false, .official⟩,
  ⟨.adc, .indy, some 5, true, false, .official⟩,
  ⟨.jam, .imp, none, false, false, .unsupported⟩,
  ⟨.rra, .indy, some 8, false, true, .unofficial⟩,
  ⟨.nop, .zpx, some 4, false, false, .unofficial⟩,
  ⟨.adc, .zpx, some 4, false, false, .official⟩,
  ⟨.ror, .zpx, some 6, false, true, .official⟩,
  ⟨.rra, .zpx, some 6, false, true, .unofficial⟩,
  ⟨.sei, .imp, some 2, false, false, .official⟩,
  ⟨.adc, .absy, some 4, true, false, .official⟩,
  ⟨.nop, .imp, some 2, false, false, .unofficial⟩,
  ⟨.rra, .absy, some 7, false, true, .unofficial⟩,
  ⟨.nop, .absx, some 4, true, false, .unofficial⟩,
  ⟨.adc, .absx, some 4, true, false, .official⟩,
  ⟨.ror, .absx, some 7, false, true, .official⟩,
  ⟨.rra, .absx, some 7, false, true, .unofficial⟩]

/-- Descriptors 0x80 to 0x8F (R238). -/
def descRow8 : Vector Desc 16 := #v[
  ⟨.nop, .imm, some 2, false, false, .unofficial⟩,
  ⟨.sta, .indx, some 6, false, false, .official⟩,
  ⟨.nop, .imm, some 2, false, false, .unofficial⟩,
  ⟨.sax, .indx, some 6, false, false, .unofficial⟩,
  ⟨.sty, .zp, some 3, false, false, .official⟩,
  ⟨.sta, .zp, some 3, false, false, .official⟩,
  ⟨.stx, .zp, some 3, false, false, .official⟩,
  ⟨.sax, .zp, some 3, false, false, .unofficial⟩,
  ⟨.dey, .imp, some 2, false, false, .official⟩,
  ⟨.nop, .imm, some 2, false, false, .unofficial⟩,
  ⟨.txa, .imp, some 2, false, false, .official⟩,
  ⟨.xaa, .imm, none, false, false, .unsupported⟩,
  ⟨.sty, .abs, some 4, false, false, .official⟩,
  ⟨.sta, .abs, some 4, false, false, .official⟩,
  ⟨.stx, .abs, some 4, false, false, .official⟩,
  ⟨.sax, .abs, some 4, false, false, .unofficial⟩]

/-- Descriptors 0x90 to 0x9F (R238). -/
def descRow9 : Vector Desc 16 := #v[
  ⟨.bcc, .rel, some 2, false, false, .official⟩,
  ⟨.sta, .indy, some 6, false, false, .official⟩,
  ⟨.jam, .imp, none, false, false, .unsupported⟩,
  ⟨.sha, .indy, none, false, false, .unsupported⟩,
  ⟨.sty, .zpx, some 4, false, false, .official⟩,
  ⟨.sta, .zpx, some 4, false, false, .official⟩,
  ⟨.stx, .zpy, some 4, false, false, .official⟩,
  ⟨.sax, .zpy, some 4, false, false, .unofficial⟩,
  ⟨.tya, .imp, some 2, false, false, .official⟩,
  ⟨.sta, .absy, some 5, false, false, .official⟩,
  ⟨.txs, .imp, some 2, false, false, .official⟩,
  ⟨.tas, .absy, none, false, false, .unsupported⟩,
  ⟨.shy, .absx, none, false, false, .unsupported⟩,
  ⟨.sta, .absx, some 5, false, false, .official⟩,
  ⟨.shx, .absy, none, false, false, .unsupported⟩,
  ⟨.sha, .absy, none, false, false, .unsupported⟩]

/-- Descriptors 0xA0 to 0xAF (R238). -/
def descRowA : Vector Desc 16 := #v[
  ⟨.ldy, .imm, some 2, false, false, .official⟩,
  ⟨.lda, .indx, some 6, false, false, .official⟩,
  ⟨.ldx, .imm, some 2, false, false, .official⟩,
  ⟨.lax, .indx, some 6, false, false, .unofficial⟩,
  ⟨.ldy, .zp, some 3, false, false, .official⟩,
  ⟨.lda, .zp, some 3, false, false, .official⟩,
  ⟨.ldx, .zp, some 3, false, false, .official⟩,
  ⟨.lax, .zp, some 3, false, false, .unofficial⟩,
  ⟨.tay, .imp, some 2, false, false, .official⟩,
  ⟨.lda, .imm, some 2, false, false, .official⟩,
  ⟨.tax, .imp, some 2, false, false, .official⟩,
  ⟨.lxa, .imm, none, false, false, .unsupported⟩,
  ⟨.ldy, .abs, some 4, false, false, .official⟩,
  ⟨.lda, .abs, some 4, false, false, .official⟩,
  ⟨.ldx, .abs, some 4, false, false, .official⟩,
  ⟨.lax, .abs, some 4, false, false, .unofficial⟩]

/-- Descriptors 0xB0 to 0xBF (R238). -/
def descRowB : Vector Desc 16 := #v[
  ⟨.bcs, .rel, some 2, false, false, .official⟩,
  ⟨.lda, .indy, some 5, true, false, .official⟩,
  ⟨.jam, .imp, none, false, false, .unsupported⟩,
  ⟨.lax, .indy, some 5, true, false, .unofficial⟩,
  ⟨.ldy, .zpx, some 4, false, false, .official⟩,
  ⟨.lda, .zpx, some 4, false, false, .official⟩,
  ⟨.ldx, .zpy, some 4, false, false, .official⟩,
  ⟨.lax, .zpy, some 4, false, false, .unofficial⟩,
  ⟨.clv, .imp, some 2, false, false, .official⟩,
  ⟨.lda, .absy, some 4, true, false, .official⟩,
  ⟨.tsx, .imp, some 2, false, false, .official⟩,
  ⟨.las, .absy, none, false, false, .unsupported⟩,
  ⟨.ldy, .absx, some 4, true, false, .official⟩,
  ⟨.lda, .absx, some 4, true, false, .official⟩,
  ⟨.ldx, .absy, some 4, true, false, .official⟩,
  ⟨.lax, .absy, some 4, true, false, .unofficial⟩]

/-- Descriptors 0xC0 to 0xCF (R238). -/
def descRowC : Vector Desc 16 := #v[
  ⟨.cpy, .imm, some 2, false, false, .official⟩,
  ⟨.cmp, .indx, some 6, false, false, .official⟩,
  ⟨.nop, .imm, some 2, false, false, .unofficial⟩,
  ⟨.dcp, .indx, some 8, false, true, .unofficial⟩,
  ⟨.cpy, .zp, some 3, false, false, .official⟩,
  ⟨.cmp, .zp, some 3, false, false, .official⟩,
  ⟨.dec, .zp, some 5, false, true, .official⟩,
  ⟨.dcp, .zp, some 5, false, true, .unofficial⟩,
  ⟨.iny, .imp, some 2, false, false, .official⟩,
  ⟨.cmp, .imm, some 2, false, false, .official⟩,
  ⟨.dex, .imp, some 2, false, false, .official⟩,
  ⟨.axs, .imm, some 2, false, false, .unofficial⟩,
  ⟨.cpy, .abs, some 4, false, false, .official⟩,
  ⟨.cmp, .abs, some 4, false, false, .official⟩,
  ⟨.dec, .abs, some 6, false, true, .official⟩,
  ⟨.dcp, .abs, some 6, false, true, .unofficial⟩]

/-- Descriptors 0xD0 to 0xDF (R238). -/
def descRowD : Vector Desc 16 := #v[
  ⟨.bne, .rel, some 2, false, false, .official⟩,
  ⟨.cmp, .indy, some 5, true, false, .official⟩,
  ⟨.jam, .imp, none, false, false, .unsupported⟩,
  ⟨.dcp, .indy, some 8, false, true, .unofficial⟩,
  ⟨.nop, .zpx, some 4, false, false, .unofficial⟩,
  ⟨.cmp, .zpx, some 4, false, false, .official⟩,
  ⟨.dec, .zpx, some 6, false, true, .official⟩,
  ⟨.dcp, .zpx, some 6, false, true, .unofficial⟩,
  ⟨.cld, .imp, some 2, false, false, .official⟩,
  ⟨.cmp, .absy, some 4, true, false, .official⟩,
  ⟨.nop, .imp, some 2, false, false, .unofficial⟩,
  ⟨.dcp, .absy, some 7, false, true, .unofficial⟩,
  ⟨.nop, .absx, some 4, true, false, .unofficial⟩,
  ⟨.cmp, .absx, some 4, true, false, .official⟩,
  ⟨.dec, .absx, some 7, false, true, .official⟩,
  ⟨.dcp, .absx, some 7, false, true, .unofficial⟩]

/-- Descriptors 0xE0 to 0xEF (R238). -/
def descRowE : Vector Desc 16 := #v[
  ⟨.cpx, .imm, some 2, false, false, .official⟩,
  ⟨.sbc, .indx, some 6, false, false, .official⟩,
  ⟨.nop, .imm, some 2, false, false, .unofficial⟩,
  ⟨.isc, .indx, some 8, false, true, .unofficial⟩,
  ⟨.cpx, .zp, some 3, false, false, .official⟩,
  ⟨.sbc, .zp, some 3, false, false, .official⟩,
  ⟨.inc, .zp, some 5, false, true, .official⟩,
  ⟨.isc, .zp, some 5, false, true, .unofficial⟩,
  ⟨.inx, .imp, some 2, false, false, .official⟩,
  ⟨.sbc, .imm, some 2, false, false, .official⟩,
  ⟨.nop, .imp, some 2, false, false, .official⟩,
  ⟨.sbc, .imm, some 2, false, false, .unofficial⟩,
  ⟨.cpx, .abs, some 4, false, false, .official⟩,
  ⟨.sbc, .abs, some 4, false, false, .official⟩,
  ⟨.inc, .abs, some 6, false, true, .official⟩,
  ⟨.isc, .abs, some 6, false, true, .unofficial⟩]

/-- Descriptors 0xF0 to 0xFF (R238). -/
def descRowF : Vector Desc 16 := #v[
  ⟨.beq, .rel, some 2, false, false, .official⟩,
  ⟨.sbc, .indy, some 5, true, false, .official⟩,
  ⟨.jam, .imp, none, false, false, .unsupported⟩,
  ⟨.isc, .indy, some 8, false, true, .unofficial⟩,
  ⟨.nop, .zpx, some 4, false, false, .unofficial⟩,
  ⟨.sbc, .zpx, some 4, false, false, .official⟩,
  ⟨.inc, .zpx, some 6, false, true, .official⟩,
  ⟨.isc, .zpx, some 6, false, true, .unofficial⟩,
  ⟨.sed, .imp, some 2, false, false, .official⟩,
  ⟨.sbc, .absy, some 4, true, false, .official⟩,
  ⟨.nop, .imp, some 2, false, false, .unofficial⟩,
  ⟨.isc, .absy, some 7, false, true, .unofficial⟩,
  ⟨.nop, .absx, some 4, true, false, .unofficial⟩,
  ⟨.sbc, .absx, some 4, true, false, .official⟩,
  ⟨.inc, .absx, some 7, false, true, .official⟩,
  ⟨.isc, .absx, some 7, false, true, .unofficial⟩]

/-- The descriptor table (R233, R238), laid out as the map of R237: rows by the high nibble of the opcode
byte, columns by the low nibble. "All 256 byte values have a defined descriptor" (R234). -/
def descTable : Vector (Vector Desc 16) 16 :=
  #v[descRow0, descRow1, descRow2, descRow3, descRow4, descRow5, descRow6, descRow7, descRow8, descRow9,
    descRowA, descRowB, descRowC, descRowD, descRowE, descRowF]

/-- The high nibble of a byte is below 16. -/
theorem Byte.hiNibble_lt (b : Byte) : b.toNat / 16 < 16 := by have := b.isLt; omega

/-- The low nibble of a byte is below 16. -/
theorem Byte.loNibble_lt (b : Byte) : b.toNat % 16 < 16 := by omega

/-- `Desc[op]` (R233, R262): one lookup, which cannot fail. -/
def desc (op : Byte) : Desc :=
  (descTable[op.toNat / 16]'op.hiNibble_lt)[op.toNat % 16]'op.loNibble_lt

/-! ### The decoder -/

/-- The instructions of opcode bytes 0x00 to 0x0F, from operand bytes 1 and 2 (R231, R237, R238). -/
def instrRow0 : Vector (Byte → Byte → Instr) 16 := #v[
  fun _ _ => .brk,
  fun b1 _ => .oraIndx b1,
  fun _ _ => .jam02,
  fun b1 _ => .sloIndx b1,
  fun b1 _ => .nopZp04 b1,
  fun b1 _ => .oraZp b1,
  fun b1 _ => .aslZp b1,
  fun b1 _ => .sloZp b1,
  fun _ _ => .php,
  fun b1 _ => .oraImm b1,
  fun _ _ => .aslAcc,
  fun b1 _ => .ancImm0B b1,
  fun b1 b2 => .nopAbs (b2.pair b1),
  fun b1 b2 => .oraAbs (b2.pair b1),
  fun b1 b2 => .aslAbs (b2.pair b1),
  fun b1 b2 => .sloAbs (b2.pair b1)]

/-- The instructions of opcode bytes 0x10 to 0x1F, from operand bytes 1 and 2 (R231, R237, R238). -/
def instrRow1 : Vector (Byte → Byte → Instr) 16 := #v[
  fun b1 _ => .bpl b1,
  fun b1 _ => .oraIndy b1,
  fun _ _ => .jam12,
  fun b1 _ => .sloIndy b1,
  fun b1 _ => .nopZpx14 b1,
  fun b1 _ => .oraZpx b1,
  fun b1 _ => .aslZpx b1,
  fun b1 _ => .sloZpx b1,
  fun _ _ => .clc,
  fun b1 b2 => .oraAbsy (b2.pair b1),
  fun _ _ => .nop1A,
  fun b1 b2 => .sloAbsy (b2.pair b1),
  fun b1 b2 => .nopAbsx1C (b2.pair b1),
  fun b1 b2 => .oraAbsx (b2.pair b1),
  fun b1 b2 => .aslAbsx (b2.pair b1),
  fun b1 b2 => .sloAbsx (b2.pair b1)]

/-- The instructions of opcode bytes 0x20 to 0x2F, from operand bytes 1 and 2 (R231, R237, R238). -/
def instrRow2 : Vector (Byte → Byte → Instr) 16 := #v[
  fun b1 b2 => .jsr (b2.pair b1),
  fun b1 _ => .andIndx b1,
  fun _ _ => .jam22,
  fun b1 _ => .rlaIndx b1,
  fun b1 _ => .bitZp b1,
  fun b1 _ => .andZp b1,
  fun b1 _ => .rolZp b1,
  fun b1 _ => .rlaZp b1,
  fun _ _ => .plp,
  fun b1 _ => .andImm b1,
  fun _ _ => .rolAcc,
  fun b1 _ => .ancImm2B b1,
  fun b1 b2 => .bitAbs (b2.pair b1),
  fun b1 b2 => .andAbs (b2.pair b1),
  fun b1 b2 => .rolAbs (b2.pair b1),
  fun b1 b2 => .rlaAbs (b2.pair b1)]

/-- The instructions of opcode bytes 0x30 to 0x3F, from operand bytes 1 and 2 (R231, R237, R238). -/
def instrRow3 : Vector (Byte → Byte → Instr) 16 := #v[
  fun b1 _ => .bmi b1,
  fun b1 _ => .andIndy b1,
  fun _ _ => .jam32,
  fun b1 _ => .rlaIndy b1,
  fun b1 _ => .nopZpx34 b1,
  fun b1 _ => .andZpx b1,
  fun b1 _ => .rolZpx b1,
  fun b1 _ => .rlaZpx b1,
  fun _ _ => .sec,
  fun b1 b2 => .andAbsy (b2.pair b1),
  fun _ _ => .nop3A,
  fun b1 b2 => .rlaAbsy (b2.pair b1),
  fun b1 b2 => .nopAbsx3C (b2.pair b1),
  fun b1 b2 => .andAbsx (b2.pair b1),
  fun b1 b2 => .rolAbsx (b2.pair b1),
  fun b1 b2 => .rlaAbsx (b2.pair b1)]

/-- The instructions of opcode bytes 0x40 to 0x4F, from operand bytes 1 and 2 (R231, R237, R238). -/
def instrRow4 : Vector (Byte → Byte → Instr) 16 := #v[
  fun _ _ => .rti,
  fun b1 _ => .eorIndx b1,
  fun _ _ => .jam42,
  fun b1 _ => .sreIndx b1,
  fun b1 _ => .nopZp44 b1,
  fun b1 _ => .eorZp b1,
  fun b1 _ => .lsrZp b1,
  fun b1 _ => .sreZp b1,
  fun _ _ => .pha,
  fun b1 _ => .eorImm b1,
  fun _ _ => .lsrAcc,
  fun b1 _ => .alr b1,
  fun b1 b2 => .jmpAbs (b2.pair b1),
  fun b1 b2 => .eorAbs (b2.pair b1),
  fun b1 b2 => .lsrAbs (b2.pair b1),
  fun b1 b2 => .sreAbs (b2.pair b1)]

/-- The instructions of opcode bytes 0x50 to 0x5F, from operand bytes 1 and 2 (R231, R237, R238). -/
def instrRow5 : Vector (Byte → Byte → Instr) 16 := #v[
  fun b1 _ => .bvc b1,
  fun b1 _ => .eorIndy b1,
  fun _ _ => .jam52,
  fun b1 _ => .sreIndy b1,
  fun b1 _ => .nopZpx54 b1,
  fun b1 _ => .eorZpx b1,
  fun b1 _ => .lsrZpx b1,
  fun b1 _ => .sreZpx b1,
  fun _ _ => .cli,
  fun b1 b2 => .eorAbsy (b2.pair b1),
  fun _ _ => .nop5A,
  fun b1 b2 => .sreAbsy (b2.pair b1),
  fun b1 b2 => .nopAbsx5C (b2.pair b1),
  fun b1 b2 => .eorAbsx (b2.pair b1),
  fun b1 b2 => .lsrAbsx (b2.pair b1),
  fun b1 b2 => .sreAbsx (b2.pair b1)]

/-- The instructions of opcode bytes 0x60 to 0x6F, from operand bytes 1 and 2 (R231, R237, R238). -/
def instrRow6 : Vector (Byte → Byte → Instr) 16 := #v[
  fun _ _ => .rts,
  fun b1 _ => .adcIndx b1,
  fun _ _ => .jam62,
  fun b1 _ => .rraIndx b1,
  fun b1 _ => .nopZp64 b1,
  fun b1 _ => .adcZp b1,
  fun b1 _ => .rorZp b1,
  fun b1 _ => .rraZp b1,
  fun _ _ => .pla,
  fun b1 _ => .adcImm b1,
  fun _ _ => .rorAcc,
  fun b1 _ => .arr b1,
  fun b1 b2 => .jmpInd (b2.pair b1),
  fun b1 b2 => .adcAbs (b2.pair b1),
  fun b1 b2 => .rorAbs (b2.pair b1),
  fun b1 b2 => .rraAbs (b2.pair b1)]

/-- The instructions of opcode bytes 0x70 to 0x7F, from operand bytes 1 and 2 (R231, R237, R238). -/
def instrRow7 : Vector (Byte → Byte → Instr) 16 := #v[
  fun b1 _ => .bvs b1,
  fun b1 _ => .adcIndy b1,
  fun _ _ => .jam72,
  fun b1 _ => .rraIndy b1,
  fun b1 _ => .nopZpx74 b1,
  fun b1 _ => .adcZpx b1,
  fun b1 _ => .rorZpx b1,
  fun b1 _ => .rraZpx b1,
  fun _ _ => .sei,
  fun b1 b2 => .adcAbsy (b2.pair b1),
  fun _ _ => .nop7A,
  fun b1 b2 => .rraAbsy (b2.pair b1),
  fun b1 b2 => .nopAbsx7C (b2.pair b1),
  fun b1 b2 => .adcAbsx (b2.pair b1),
  fun b1 b2 => .rorAbsx (b2.pair b1),
  fun b1 b2 => .rraAbsx (b2.pair b1)]

/-- The instructions of opcode bytes 0x80 to 0x8F, from operand bytes 1 and 2 (R231, R237, R238). -/
def instrRow8 : Vector (Byte → Byte → Instr) 16 := #v[
  fun b1 _ => .nopImm80 b1,
  fun b1 _ => .staIndx b1,
  fun b1 _ => .nopImm82 b1,
  fun b1 _ => .saxIndx b1,
  fun b1 _ => .styZp b1,
  fun b1 _ => .staZp b1,
  fun b1 _ => .stxZp b1,
  fun b1 _ => .saxZp b1,
  fun _ _ => .dey,
  fun b1 _ => .nopImm89 b1,
  fun _ _ => .txa,
  fun b1 _ => .xaa b1,
  fun b1 b2 => .styAbs (b2.pair b1),
  fun b1 b2 => .staAbs (b2.pair b1),
  fun b1 b2 => .stxAbs (b2.pair b1),
  fun b1 b2 => .saxAbs (b2.pair b1)]

/-- The instructions of opcode bytes 0x90 to 0x9F, from operand bytes 1 and 2 (R231, R237, R238). -/
def instrRow9 : Vector (Byte → Byte → Instr) 16 := #v[
  fun b1 _ => .bcc b1,
  fun b1 _ => .staIndy b1,
  fun _ _ => .jam92,
  fun b1 _ => .shaIndy b1,
  fun b1 _ => .styZpx b1,
  fun b1 _ => .staZpx b1,
  fun b1 _ => .stxZpy b1,
  fun b1 _ => .saxZpy b1,
  fun _ _ => .tya,
  fun b1 b2 => .staAbsy (b2.pair b1),
  fun _ _ => .txs,
  fun b1 b2 => .tas (b2.pair b1),
  fun b1 b2 => .shy (b2.pair b1),
  fun b1 b2 => .staAbsx (b2.pair b1),
  fun b1 b2 => .shx (b2.pair b1),
  fun b1 b2 => .shaAbsy (b2.pair b1)]

/-- The instructions of opcode bytes 0xA0 to 0xAF, from operand bytes 1 and 2 (R231, R237, R238). -/
def instrRowA : Vector (Byte → Byte → Instr) 16 := #v[
  fun b1 _ => .ldyImm b1,
  fun b1 _ => .ldaIndx b1,
  fun b1 _ => .ldxImm b1,
  fun b1 _ => .laxIndx b1,
  fun b1 _ => .ldyZp b1,
  fun b1 _ => .ldaZp b1,
  fun b1 _ => .ldxZp b1,
  fun b1 _ => .laxZp b1,
  fun _ _ => .tay,
  fun b1 _ => .ldaImm b1,
  fun _ _ => .tax,
  fun b1 _ => .lxa b1,
  fun b1 b2 => .ldyAbs (b2.pair b1),
  fun b1 b2 => .ldaAbs (b2.pair b1),
  fun b1 b2 => .ldxAbs (b2.pair b1),
  fun b1 b2 => .laxAbs (b2.pair b1)]

/-- The instructions of opcode bytes 0xB0 to 0xBF, from operand bytes 1 and 2 (R231, R237, R238). -/
def instrRowB : Vector (Byte → Byte → Instr) 16 := #v[
  fun b1 _ => .bcs b1,
  fun b1 _ => .ldaIndy b1,
  fun _ _ => .jamB2,
  fun b1 _ => .laxIndy b1,
  fun b1 _ => .ldyZpx b1,
  fun b1 _ => .ldaZpx b1,
  fun b1 _ => .ldxZpy b1,
  fun b1 _ => .laxZpy b1,
  fun _ _ => .clv,
  fun b1 b2 => .ldaAbsy (b2.pair b1),
  fun _ _ => .tsx,
  fun b1 b2 => .las (b2.pair b1),
  fun b1 b2 => .ldyAbsx (b2.pair b1),
  fun b1 b2 => .ldaAbsx (b2.pair b1),
  fun b1 b2 => .ldxAbsy (b2.pair b1),
  fun b1 b2 => .laxAbsy (b2.pair b1)]

/-- The instructions of opcode bytes 0xC0 to 0xCF, from operand bytes 1 and 2 (R231, R237, R238). -/
def instrRowC : Vector (Byte → Byte → Instr) 16 := #v[
  fun b1 _ => .cpyImm b1,
  fun b1 _ => .cmpIndx b1,
  fun b1 _ => .nopImmC2 b1,
  fun b1 _ => .dcpIndx b1,
  fun b1 _ => .cpyZp b1,
  fun b1 _ => .cmpZp b1,
  fun b1 _ => .decZp b1,
  fun b1 _ => .dcpZp b1,
  fun _ _ => .iny,
  fun b1 _ => .cmpImm b1,
  fun _ _ => .dex,
  fun b1 _ => .axs b1,
  fun b1 b2 => .cpyAbs (b2.pair b1),
  fun b1 b2 => .cmpAbs (b2.pair b1),
  fun b1 b2 => .decAbs (b2.pair b1),
  fun b1 b2 => .dcpAbs (b2.pair b1)]

/-- The instructions of opcode bytes 0xD0 to 0xDF, from operand bytes 1 and 2 (R231, R237, R238). -/
def instrRowD : Vector (Byte → Byte → Instr) 16 := #v[
  fun b1 _ => .bne b1,
  fun b1 _ => .cmpIndy b1,
  fun _ _ => .jamD2,
  fun b1 _ => .dcpIndy b1,
  fun b1 _ => .nopZpxD4 b1,
  fun b1 _ => .cmpZpx b1,
  fun b1 _ => .decZpx b1,
  fun b1 _ => .dcpZpx b1,
  fun _ _ => .cld,
  fun b1 b2 => .cmpAbsy (b2.pair b1),
  fun _ _ => .nopDA,
  fun b1 b2 => .dcpAbsy (b2.pair b1),
  fun b1 b2 => .nopAbsxDC (b2.pair b1),
  fun b1 b2 => .cmpAbsx (b2.pair b1),
  fun b1 b2 => .decAbsx (b2.pair b1),
  fun b1 b2 => .dcpAbsx (b2.pair b1)]

/-- The instructions of opcode bytes 0xE0 to 0xEF, from operand bytes 1 and 2 (R231, R237, R238). -/
def instrRowE : Vector (Byte → Byte → Instr) 16 := #v[
  fun b1 _ => .cpxImm b1,
  fun b1 _ => .sbcIndx b1,
  fun b1 _ => .nopImmE2 b1,
  fun b1 _ => .iscIndx b1,
  fun b1 _ => .cpxZp b1,
  fun b1 _ => .sbcZp b1,
  fun b1 _ => .incZp b1,
  fun b1 _ => .iscZp b1,
  fun _ _ => .inx,
  fun b1 _ => .sbcImm b1,
  fun _ _ => .nop,
  fun b1 _ => .sbcImmEB b1,
  fun b1 b2 => .cpxAbs (b2.pair b1),
  fun b1 b2 => .sbcAbs (b2.pair b1),
  fun b1 b2 => .incAbs (b2.pair b1),
  fun b1 b2 => .iscAbs (b2.pair b1)]

/-- The instructions of opcode bytes 0xF0 to 0xFF, from operand bytes 1 and 2 (R231, R237, R238). -/
def instrRowF : Vector (Byte → Byte → Instr) 16 := #v[
  fun b1 _ => .beq b1,
  fun b1 _ => .sbcIndy b1,
  fun _ _ => .jamF2,
  fun b1 _ => .iscIndy b1,
  fun b1 _ => .nopZpxF4 b1,
  fun b1 _ => .sbcZpx b1,
  fun b1 _ => .incZpx b1,
  fun b1 _ => .iscZpx b1,
  fun _ _ => .sed,
  fun b1 b2 => .sbcAbsy (b2.pair b1),
  fun _ _ => .nopFA,
  fun b1 b2 => .iscAbsy (b2.pair b1),
  fun b1 b2 => .nopAbsxFC (b2.pair b1),
  fun b1 b2 => .sbcAbsx (b2.pair b1),
  fun b1 b2 => .incAbsx (b2.pair b1),
  fun b1 b2 => .iscAbsx (b2.pair b1)]

/-- The instructions of the opcode table, laid out as `descTable` is (R237). -/
def instrTable : Vector (Vector (Byte → Byte → Instr) 16) 16 :=
  #v[instrRow0, instrRow1, instrRow2, instrRow3, instrRow4, instrRow5, instrRow6, instrRow7, instrRow8,
    instrRow9, instrRowA, instrRowB, instrRowC, instrRowD, instrRowE, instrRowF]

/-- The instruction that opcode byte `b0` and the bytes after it, `b1` and `b2`, stand for: "the opcode byte
alone selects the operation and the addressing mode" (R230). A row uses as many of `b1`, `b2` as it is long. -/
def decode3 (b0 b1 b2 : Byte) : Instr :=
  ((instrTable[b0.toNat / 16]'b0.hiNibble_lt)[b0.toNat % 16]'b0.loNibble_lt) b1 b2

/-- Why a list of bytes holds no instruction at its head. -/
inductive DecodeError where
  /-- there is no byte -/
  | noBytes
  /-- the opcode byte asks for `need` bytes and fewer are there -/
  | truncated (need : Nat)
  deriving DecidableEq, Repr

/-- One instruction from the head of a list of bytes, with the bytes after it (R230). -/
def decode : List Byte → Except DecodeError (Instr × List Byte)
  | [] => .error .noBytes
  | b0 :: bs =>
    match (desc b0).mode.length, bs with
    | 1, bs => .ok (decode3 b0 0 0, bs)
    | 2, b1 :: bs => .ok (decode3 b0 b1 0, bs)
    | 3, b1 :: b2 :: bs => .ok (decode3 b0 b1 b2, bs)
    | n, _ => .error (.truncated n)

/-- Byte `k` of a table word (bit 0 of the word is the least significant bit of the first byte). -/
def tableByte (w k : Nat) : Byte := BitVec.ofNat 8 (w >>> (8 * k))

/-- The first three bytes of an instruction whose bits, numbered as the opcode table numbers them, are `w`;
bits above `nbits` are 0. -/
def tableBytes (nbits w : Nat) : List Byte :=
  let w := w % 2 ^ nbits
  [tableByte w 0, tableByte w 1, tableByte w 2]

/-- The instruction the decoder reads from the bits `w` of a table row of `nbits` bits. -/
def decodeTableWord (nbits w : Nat) : Option Instr :=
  match decode (tableBytes nbits w) with
  | .ok (i, _) => some i
  | .error _ => none

/-! ### The encoder -/

/-- The opcode byte of an instruction (R238). -/
def Instr.opcode : Instr → Byte
  | .brk => 0x00
  | .oraIndx _ => 0x01
  | .jam02 => 0x02
  | .sloIndx _ => 0x03
  | .nopZp04 _ => 0x04
  | .oraZp _ => 0x05
  | .aslZp _ => 0x06
  | .sloZp _ => 0x07
  | .php => 0x08
  | .oraImm _ => 0x09
  | .aslAcc => 0x0A
  | .ancImm0B _ => 0x0B
  | .nopAbs _ => 0x0C
  | .oraAbs _ => 0x0D
  | .aslAbs _ => 0x0E
  | .sloAbs _ => 0x0F
  | .bpl _ => 0x10
  | .oraIndy _ => 0x11
  | .jam12 => 0x12
  | .sloIndy _ => 0x13
  | .nopZpx14 _ => 0x14
  | .oraZpx _ => 0x15
  | .aslZpx _ => 0x16
  | .sloZpx _ => 0x17
  | .clc => 0x18
  | .oraAbsy _ => 0x19
  | .nop1A => 0x1A
  | .sloAbsy _ => 0x1B
  | .nopAbsx1C _ => 0x1C
  | .oraAbsx _ => 0x1D
  | .aslAbsx _ => 0x1E
  | .sloAbsx _ => 0x1F
  | .jsr _ => 0x20
  | .andIndx _ => 0x21
  | .jam22 => 0x22
  | .rlaIndx _ => 0x23
  | .bitZp _ => 0x24
  | .andZp _ => 0x25
  | .rolZp _ => 0x26
  | .rlaZp _ => 0x27
  | .plp => 0x28
  | .andImm _ => 0x29
  | .rolAcc => 0x2A
  | .ancImm2B _ => 0x2B
  | .bitAbs _ => 0x2C
  | .andAbs _ => 0x2D
  | .rolAbs _ => 0x2E
  | .rlaAbs _ => 0x2F
  | .bmi _ => 0x30
  | .andIndy _ => 0x31
  | .jam32 => 0x32
  | .rlaIndy _ => 0x33
  | .nopZpx34 _ => 0x34
  | .andZpx _ => 0x35
  | .rolZpx _ => 0x36
  | .rlaZpx _ => 0x37
  | .sec => 0x38
  | .andAbsy _ => 0x39
  | .nop3A => 0x3A
  | .rlaAbsy _ => 0x3B
  | .nopAbsx3C _ => 0x3C
  | .andAbsx _ => 0x3D
  | .rolAbsx _ => 0x3E
  | .rlaAbsx _ => 0x3F
  | .rti => 0x40
  | .eorIndx _ => 0x41
  | .jam42 => 0x42
  | .sreIndx _ => 0x43
  | .nopZp44 _ => 0x44
  | .eorZp _ => 0x45
  | .lsrZp _ => 0x46
  | .sreZp _ => 0x47
  | .pha => 0x48
  | .eorImm _ => 0x49
  | .lsrAcc => 0x4A
  | .alr _ => 0x4B
  | .jmpAbs _ => 0x4C
  | .eorAbs _ => 0x4D
  | .lsrAbs _ => 0x4E
  | .sreAbs _ => 0x4F
  | .bvc _ => 0x50
  | .eorIndy _ => 0x51
  | .jam52 => 0x52
  | .sreIndy _ => 0x53
  | .nopZpx54 _ => 0x54
  | .eorZpx _ => 0x55
  | .lsrZpx _ => 0x56
  | .sreZpx _ => 0x57
  | .cli => 0x58
  | .eorAbsy _ => 0x59
  | .nop5A => 0x5A
  | .sreAbsy _ => 0x5B
  | .nopAbsx5C _ => 0x5C
  | .eorAbsx _ => 0x5D
  | .lsrAbsx _ => 0x5E
  | .sreAbsx _ => 0x5F
  | .rts => 0x60
  | .adcIndx _ => 0x61
  | .jam62 => 0x62
  | .rraIndx _ => 0x63
  | .nopZp64 _ => 0x64
  | .adcZp _ => 0x65
  | .rorZp _ => 0x66
  | .rraZp _ => 0x67
  | .pla => 0x68
  | .adcImm _ => 0x69
  | .rorAcc => 0x6A
  | .arr _ => 0x6B
  | .jmpInd _ => 0x6C
  | .adcAbs _ => 0x6D
  | .rorAbs _ => 0x6E
  | .rraAbs _ => 0x6F
  | .bvs _ => 0x70
  | .adcIndy _ => 0x71
  | .jam72 => 0x72
  | .rraIndy _ => 0x73
  | .nopZpx74 _ => 0x74
  | .adcZpx _ => 0x75
  | .rorZpx _ => 0x76
  | .rraZpx _ => 0x77
  | .sei => 0x78
  | .adcAbsy _ => 0x79
  | .nop7A => 0x7A
  | .rraAbsy _ => 0x7B
  | .nopAbsx7C _ => 0x7C
  | .adcAbsx _ => 0x7D
  | .rorAbsx _ => 0x7E
  | .rraAbsx _ => 0x7F
  | .nopImm80 _ => 0x80
  | .staIndx _ => 0x81
  | .nopImm82 _ => 0x82
  | .saxIndx _ => 0x83
  | .styZp _ => 0x84
  | .staZp _ => 0x85
  | .stxZp _ => 0x86
  | .saxZp _ => 0x87
  | .dey => 0x88
  | .nopImm89 _ => 0x89
  | .txa => 0x8A
  | .xaa _ => 0x8B
  | .styAbs _ => 0x8C
  | .staAbs _ => 0x8D
  | .stxAbs _ => 0x8E
  | .saxAbs _ => 0x8F
  | .bcc _ => 0x90
  | .staIndy _ => 0x91
  | .jam92 => 0x92
  | .shaIndy _ => 0x93
  | .styZpx _ => 0x94
  | .staZpx _ => 0x95
  | .stxZpy _ => 0x96
  | .saxZpy _ => 0x97
  | .tya => 0x98
  | .staAbsy _ => 0x99
  | .txs => 0x9A
  | .tas _ => 0x9B
  | .shy _ => 0x9C
  | .staAbsx _ => 0x9D
  | .shx _ => 0x9E
  | .shaAbsy _ => 0x9F
  | .ldyImm _ => 0xA0
  | .ldaIndx _ => 0xA1
  | .ldxImm _ => 0xA2
  | .laxIndx _ => 0xA3
  | .ldyZp _ => 0xA4
  | .ldaZp _ => 0xA5
  | .ldxZp _ => 0xA6
  | .laxZp _ => 0xA7
  | .tay => 0xA8
  | .ldaImm _ => 0xA9
  | .tax => 0xAA
  | .lxa _ => 0xAB
  | .ldyAbs _ => 0xAC
  | .ldaAbs _ => 0xAD
  | .ldxAbs _ => 0xAE
  | .laxAbs _ => 0xAF
  | .bcs _ => 0xB0
  | .ldaIndy _ => 0xB1
  | .jamB2 => 0xB2
  | .laxIndy _ => 0xB3
  | .ldyZpx _ => 0xB4
  | .ldaZpx _ => 0xB5
  | .ldxZpy _ => 0xB6
  | .laxZpy _ => 0xB7
  | .clv => 0xB8
  | .ldaAbsy _ => 0xB9
  | .tsx => 0xBA
  | .las _ => 0xBB
  | .ldyAbsx _ => 0xBC
  | .ldaAbsx _ => 0xBD
  | .ldxAbsy _ => 0xBE
  | .laxAbsy _ => 0xBF
  | .cpyImm _ => 0xC0
  | .cmpIndx _ => 0xC1
  | .nopImmC2 _ => 0xC2
  | .dcpIndx _ => 0xC3
  | .cpyZp _ => 0xC4
  | .cmpZp _ => 0xC5
  | .decZp _ => 0xC6
  | .dcpZp _ => 0xC7
  | .iny => 0xC8
  | .cmpImm _ => 0xC9
  | .dex => 0xCA
  | .axs _ => 0xCB
  | .cpyAbs _ => 0xCC
  | .cmpAbs _ => 0xCD
  | .decAbs _ => 0xCE
  | .dcpAbs _ => 0xCF
  | .bne _ => 0xD0
  | .cmpIndy _ => 0xD1
  | .jamD2 => 0xD2
  | .dcpIndy _ => 0xD3
  | .nopZpxD4 _ => 0xD4
  | .cmpZpx _ => 0xD5
  | .decZpx _ => 0xD6
  | .dcpZpx _ => 0xD7
  | .cld => 0xD8
  | .cmpAbsy _ => 0xD9
  | .nopDA => 0xDA
  | .dcpAbsy _ => 0xDB
  | .nopAbsxDC _ => 0xDC
  | .cmpAbsx _ => 0xDD
  | .decAbsx _ => 0xDE
  | .dcpAbsx _ => 0xDF
  | .cpxImm _ => 0xE0
  | .sbcIndx _ => 0xE1
  | .nopImmE2 _ => 0xE2
  | .iscIndx _ => 0xE3
  | .cpxZp _ => 0xE4
  | .sbcZp _ => 0xE5
  | .incZp _ => 0xE6
  | .iscZp _ => 0xE7
  | .inx => 0xE8
  | .sbcImm _ => 0xE9
  | .nop => 0xEA
  | .sbcImmEB _ => 0xEB
  | .cpxAbs _ => 0xEC
  | .sbcAbs _ => 0xED
  | .incAbs _ => 0xEE
  | .iscAbs _ => 0xEF
  | .beq _ => 0xF0
  | .sbcIndy _ => 0xF1
  | .jamF2 => 0xF2
  | .iscIndy _ => 0xF3
  | .nopZpxF4 _ => 0xF4
  | .sbcZpx _ => 0xF5
  | .incZpx _ => 0xF6
  | .iscZpx _ => 0xF7
  | .sed => 0xF8
  | .sbcAbsy _ => 0xF9
  | .nopFA => 0xFA
  | .iscAbsy _ => 0xFB
  | .nopAbsxFC _ => 0xFC
  | .sbcAbsx _ => 0xFD
  | .incAbsx _ => 0xFE
  | .iscAbsx _ => 0xFF

/-- The operand of an instruction (R231, R238). -/
def Instr.operand : Instr → Operand
  | .brk => .imp
  | .oraIndx z => .indx z
  | .jam02 => .imp
  | .sloIndx z => .indx z
  | .nopZp04 z => .zp z
  | .oraZp z => .zp z
  | .aslZp z => .zp z
  | .sloZp z => .zp z
  | .php => .imp
  | .oraImm v => .imm v
  | .aslAcc => .acc
  | .ancImm0B v => .imm v
  | .nopAbs w => .abs w
  | .oraAbs w => .abs w
  | .aslAbs w => .abs w
  | .sloAbs w => .abs w
  | .bpl o => .rel o
  | .oraIndy z => .indy z
  | .jam12 => .imp
  | .sloIndy z => .indy z
  | .nopZpx14 z => .zpx z
  | .oraZpx z => .zpx z
  | .aslZpx z => .zpx z
  | .sloZpx z => .zpx z
  | .clc => .imp
  | .oraAbsy w => .absy w
  | .nop1A => .imp
  | .sloAbsy w => .absy w
  | .nopAbsx1C w => .absx w
  | .oraAbsx w => .absx w
  | .aslAbsx w => .absx w
  | .sloAbsx w => .absx w
  | .jsr w => .abs w
  | .andIndx z => .indx z
  | .jam22 => .imp
  | .rlaIndx z => .indx z
  | .bitZp z => .zp z
  | .andZp z => .zp z
  | .rolZp z => .zp z
  | .rlaZp z => .zp z
  | .plp => .imp
  | .andImm v => .imm v
  | .rolAcc => .acc
  | .ancImm2B v => .imm v
  | .bitAbs w => .abs w
  | .andAbs w => .abs w
  | .rolAbs w => .abs w
  | .rlaAbs w => .abs w
  | .bmi o => .rel o
  | .andIndy z => .indy z
  | .jam32 => .imp
  | .rlaIndy z => .indy z
  | .nopZpx34 z => .zpx z
  | .andZpx z => .zpx z
  | .rolZpx z => .zpx z
  | .rlaZpx z => .zpx z
  | .sec => .imp
  | .andAbsy w => .absy w
  | .nop3A => .imp
  | .rlaAbsy w => .absy w
  | .nopAbsx3C w => .absx w
  | .andAbsx w => .absx w
  | .rolAbsx w => .absx w
  | .rlaAbsx w => .absx w
  | .rti => .imp
  | .eorIndx z => .indx z
  | .jam42 => .imp
  | .sreIndx z => .indx z
  | .nopZp44 z => .zp z
  | .eorZp z => .zp z
  | .lsrZp z => .zp z
  | .sreZp z => .zp z
  | .pha => .imp
  | .eorImm v => .imm v
  | .lsrAcc => .acc
  | .alr v => .imm v
  | .jmpAbs w => .abs w
  | .eorAbs w => .abs w
  | .lsrAbs w => .abs w
  | .sreAbs w => .abs w
  | .bvc o => .rel o
  | .eorIndy z => .indy z
  | .jam52 => .imp
  | .sreIndy z => .indy z
  | .nopZpx54 z => .zpx z
  | .eorZpx z => .zpx z
  | .lsrZpx z => .zpx z
  | .sreZpx z => .zpx z
  | .cli => .imp
  | .eorAbsy w => .absy w
  | .nop5A => .imp
  | .sreAbsy w => .absy w
  | .nopAbsx5C w => .absx w
  | .eorAbsx w => .absx w
  | .lsrAbsx w => .absx w
  | .sreAbsx w => .absx w
  | .rts => .imp
  | .adcIndx z => .indx z
  | .jam62 => .imp
  | .rraIndx z => .indx z
  | .nopZp64 z => .zp z
  | .adcZp z => .zp z
  | .rorZp z => .zp z
  | .rraZp z => .zp z
  | .pla => .imp
  | .adcImm v => .imm v
  | .rorAcc => .acc
  | .arr v => .imm v
  | .jmpInd w => .ind w
  | .adcAbs w => .abs w
  | .rorAbs w => .abs w
  | .rraAbs w => .abs w
  | .bvs o => .rel o
  | .adcIndy z => .indy z
  | .jam72 => .imp
  | .rraIndy z => .indy z
  | .nopZpx74 z => .zpx z
  | .adcZpx z => .zpx z
  | .rorZpx z => .zpx z
  | .rraZpx z => .zpx z
  | .sei => .imp
  | .adcAbsy w => .absy w
  | .nop7A => .imp
  | .rraAbsy w => .absy w
  | .nopAbsx7C w => .absx w
  | .adcAbsx w => .absx w
  | .rorAbsx w => .absx w
  | .rraAbsx w => .absx w
  | .nopImm80 v => .imm v
  | .staIndx z => .indx z
  | .nopImm82 v => .imm v
  | .saxIndx z => .indx z
  | .styZp z => .zp z
  | .staZp z => .zp z
  | .stxZp z => .zp z
  | .saxZp z => .zp z
  | .dey => .imp
  | .nopImm89 v => .imm v
  | .txa => .imp
  | .xaa v => .imm v
  | .styAbs w => .abs w
  | .staAbs w => .abs w
  | .stxAbs w => .abs w
  | .saxAbs w => .abs w
  | .bcc o => .rel o
  | .staIndy z => .indy z
  | .jam92 => .imp
  | .shaIndy z => .indy z
  | .styZpx z => .zpx z
  | .staZpx z => .zpx z
  | .stxZpy z => .zpy z
  | .saxZpy z => .zpy z
  | .tya => .imp
  | .staAbsy w => .absy w
  | .txs => .imp
  | .tas w => .absy w
  | .shy w => .absx w
  | .staAbsx w => .absx w
  | .shx w => .absy w
  | .shaAbsy w => .absy w
  | .ldyImm v => .imm v
  | .ldaIndx z => .indx z
  | .ldxImm v => .imm v
  | .laxIndx z => .indx z
  | .ldyZp z => .zp z
  | .ldaZp z => .zp z
  | .ldxZp z => .zp z
  | .laxZp z => .zp z
  | .tay => .imp
  | .ldaImm v => .imm v
  | .tax => .imp
  | .lxa v => .imm v
  | .ldyAbs w => .abs w
  | .ldaAbs w => .abs w
  | .ldxAbs w => .abs w
  | .laxAbs w => .abs w
  | .bcs o => .rel o
  | .ldaIndy z => .indy z
  | .jamB2 => .imp
  | .laxIndy z => .indy z
  | .ldyZpx z => .zpx z
  | .ldaZpx z => .zpx z
  | .ldxZpy z => .zpy z
  | .laxZpy z => .zpy z
  | .clv => .imp
  | .ldaAbsy w => .absy w
  | .tsx => .imp
  | .las w => .absy w
  | .ldyAbsx w => .absx w
  | .ldaAbsx w => .absx w
  | .ldxAbsy w => .absy w
  | .laxAbsy w => .absy w
  | .cpyImm v => .imm v
  | .cmpIndx z => .indx z
  | .nopImmC2 v => .imm v
  | .dcpIndx z => .indx z
  | .cpyZp z => .zp z
  | .cmpZp z => .zp z
  | .decZp z => .zp z
  | .dcpZp z => .zp z
  | .iny => .imp
  | .cmpImm v => .imm v
  | .dex => .imp
  | .axs v => .imm v
  | .cpyAbs w => .abs w
  | .cmpAbs w => .abs w
  | .decAbs w => .abs w
  | .dcpAbs w => .abs w
  | .bne o => .rel o
  | .cmpIndy z => .indy z
  | .jamD2 => .imp
  | .dcpIndy z => .indy z
  | .nopZpxD4 z => .zpx z
  | .cmpZpx z => .zpx z
  | .decZpx z => .zpx z
  | .dcpZpx z => .zpx z
  | .cld => .imp
  | .cmpAbsy w => .absy w
  | .nopDA => .imp
  | .dcpAbsy w => .absy w
  | .nopAbsxDC w => .absx w
  | .cmpAbsx w => .absx w
  | .decAbsx w => .absx w
  | .dcpAbsx w => .absx w
  | .cpxImm v => .imm v
  | .sbcIndx z => .indx z
  | .nopImmE2 v => .imm v
  | .iscIndx z => .indx z
  | .cpxZp z => .zp z
  | .sbcZp z => .zp z
  | .incZp z => .zp z
  | .iscZp z => .zp z
  | .inx => .imp
  | .sbcImm v => .imm v
  | .nop => .imp
  | .sbcImmEB v => .imm v
  | .cpxAbs w => .abs w
  | .sbcAbs w => .abs w
  | .incAbs w => .abs w
  | .iscAbs w => .abs w
  | .beq o => .rel o
  | .sbcIndy z => .indy z
  | .jamF2 => .imp
  | .iscIndy z => .indy z
  | .nopZpxF4 z => .zpx z
  | .sbcZpx z => .zpx z
  | .incZpx z => .zpx z
  | .iscZpx z => .zpx z
  | .sed => .imp
  | .sbcAbsy w => .absy w
  | .nopFA => .imp
  | .iscAbsy w => .absy w
  | .nopAbsxFC w => .absx w
  | .sbcAbsx w => .absx w
  | .incAbsx w => .absx w
  | .iscAbsx w => .absx w

/-- The operand bytes (R231, R232): a word's low byte first. -/
def Operand.bytes : Operand → List Byte
  | .imp => []
  | .acc => []
  | .imm v => [v]
  | .zp z => [z]
  | .zpx z => [z]
  | .zpy z => [z]
  | .abs w => [w.lo, w.hi]
  | .absx w => [w.lo, w.hi]
  | .absy w => [w.lo, w.hi]
  | .indx z => [z]
  | .indy z => [z]
  | .rel o => [o]
  | .ind w => [w.lo, w.hi]

/-- The bytes of an instruction: the opcode byte, then the operand bytes (R230). -/
def encode (i : Instr) : List Byte := i.opcode :: i.operand.bytes

/-- The operation of an instruction: that of its row (R233). -/
def Instr.operation (i : Instr) : Operation := (desc i.opcode).operation

/-- The class of an instruction: that of its row (R234). -/
def Instr.cls (i : Instr) : RowClass := (desc i.opcode).cls

/-- The opcode byte of the row an operation and a mode pick out. R240 does not say which row a line stands for where
several share both (NOP, SBC immediate, ANC, JAM): the first official one, else the lowest opcode. DESIGN CHOICE,
log entry 17. -/
def opcodeFor (op : Operation) (m : Mode) : Option Byte :=
  let rows := (List.range 256).map (BitVec.ofNat 8)
  (rows.find? fun b => (desc b).operation == op && (desc b).mode == m && (desc b).cls == .official).or
    (rows.find? fun b => (desc b).operation == op && (desc b).mode == m)

/-- The instruction of an operation and an operand, where the table has a row for the two. -/
def instrFor (op : Operation) (o : Operand) : Option Instr :=
  (opcodeFor op o.mode).map fun b => decode3 b (o.bytes.getD 0 0) (o.bytes.getD 1 0)

/-- Assembling a source line (R240, R241): refused where the line is ill-formed. Log entries 17 and 18. -/
def assemble (line : Asm) : Option Instr :=
  if line.wf then
    match line with
    | .line op operand => instrFor op operand
    | .branch op address target => (branchOffset address target).bind fun o => instrFor op (.rel o)
  else none

end Sys2Proof
end

