-- ==== Sys2Proof/Machine/State.lean ====
section
/-!
DEFINITION. The state of the block as plain data (spec/10_state.md; spec/20_memory.md R79, R89, R90, R101;
spec/21_memory_mappers.md R122 and the variants' registers), the reasons a step can stop, and the state after
reset. INVENTORY.md's "State" lists every field with the rule that names it and its reset value.
-/
namespace Sys2Proof.Machine

/-- A byte array as the list of its (index, byte) cells, in one canonical form (`Memory.wf`): indexes strictly
rising, and no cell that holds what an unlisted index reads as (`Memory.unlisted`). -/
abbrev Memory := List Host.Cell

/-- The seven flags (R30, R37 to R43). -/
structure Flags where
  c : Bool
  z : Bool
  i : Bool
  d : Bool
  b : Bool
  v : Bool
  n : Bool
  deriving DecidableEq, Repr

/-- `ea` of R263: no operand, the accumulator, or a 16-bit address. -/
inductive Ea where
  | none
  | acc
  | addr (a : Word)
  deriving DecidableEq, Repr

/-- The per-instruction scratch (R46): `op`, `desc`, `ea`, `crossed`. -/
structure Scratch where
  op : Byte
  desc : Desc
  ea : Ea
  crossed : Bool
  deriving DecidableEq, Repr

/-- Why a cartridge image is refused (R99, R482). -/
inductive MalformedReason where
  | badMagic
  | unknownMapper (n : Nat)
  | noPrgRom
  | truncated
  deriving DecidableEq, Repr

/-- A fault record (R480, R481): for `UnsupportedOpcode` the fetched byte and the address it was fetched from,
for `MalformedCartridge` the reason. -/
inductive FaultRecord where
  | unsupportedOpcode (opcode : Byte) (pc : Word)
  | malformedCartridge (reason : MalformedReason)
  deriving DecidableEq, Repr

/-- `status` (R50). -/
inductive Status where
  | running
  | faulted (e : FaultRecord)
  deriving DecidableEq, Repr

/-- `mirroring` (R90). -/
inductive Mirroring where
  | horizontal | vertical | singleLower | singleUpper
  deriving DecidableEq, Repr

/-- The parsed cartridge, `CART` (R11, R98). `prg` and `chr` hold the bytes of PRG-ROM and CHR-ROM, of which
there are 16384 * `prgUnits` and 8192 * `chrUnits`. -/
structure Cartridge where
  prg : Memory
  prgUnits : Nat
  chr : Memory
  chrUnits : Nat
  prgRamUnits : Nat
  mapperNumber : Byte
  mirroringBit : Bool
  battery : Bool
  deriving DecidableEq, Repr

/-- The MMC1 registers (R140). -/
structure Mmc1 where
  shift : BitVec 5
  count : Fin 5
  control : BitVec 5
  chr0 : BitVec 5
  chr1 : BitVec 5
  prg : BitVec 5
  lastWritePC : Option Word
  deriving DecidableEq, Repr

/-- The MMC3 registers (R160); `r` is `R[0..7]`. -/
structure Mmc3 where
  bankSelect : Byte
  r : Vector Byte 8
  irqLatch : Byte
  irqCounter : Byte
  irqEnabled : Bool
  deriving DecidableEq, Repr

/-- The Namco 108 registers (R175); `r` is `R[0..7]`. -/
structure Namco108 where
  sel : BitVec 3
  r : Vector Byte 8
  deriving DecidableEq, Repr

/-- A CHR latch of MMC2 and MMC4 (R180). -/
inductive Latch where
  | fd | fe
  deriving DecidableEq, Repr

/-- The MMC2 and MMC4 registers (R180). -/
structure LatchMapper where
  prgBank : BitVec 4
  chrFD0 : BitVec 5
  chrFE0 : BitVec 5
  chrFD1 : BitVec 5
  chrFE1 : BitVec 5
  latch0 : Latch
  latch1 : Latch
  deriving DecidableEq, Repr

/-- The mapper variants with their registers (R120: "a closed tagged-variant (sum type) over the known mapper
kinds, each variant holding its own register state"; R121). R132 to R134 give UxROM, CNROM and AxROM a register of
8 bits. R135 to R139 name no register and give no width for ColorDreams, GxROM, Camerica, UN1ROM and UNROM-fix-first:
each holds the whole byte last written, and not the masked bank number. DESIGN CHOICE, log entry 19. -/
inductive Mapper where
  | nrom
  | mmc1 (r : Mmc1)
  | uxrom (bank : Byte)
  | cnrom (chrBank : Byte)
  | mmc3 (r : Mmc3)
  | axrom (r : Byte)
  | mmc2 (r : LatchMapper)
  | mmc4 (r : LatchMapper)
  | colorDreams (r : Byte)
  | gxrom (r : Byte)
  | camerica (r : Byte)
  | un1rom (r : Byte)
  | unromFixFirst (r : Byte)
  | namco108 (r : Namco108)
  deriving DecidableEq, Repr

/-- One bus access with its byte (R285, R101): a read or write of the CPU space, a read or write of the
picture-unit space. -/
inductive BusAccess where
  | read (a : Word) (v : Byte)
  | write (a : Word) (v : Byte)
  | ppuRead (a : PpuAddr) (v : Byte)
  | ppuWrite (a : PpuAddr) (v : Byte)
  deriving DecidableEq, Repr

/-- The state of the block. -/
structure State where
  /-- the accumulator (R31) -/
  a : Byte
  /-- index register X (R32) -/
  x : Byte
  /-- index register Y (R33) -/
  y : Byte
  /-- the stack pointer (R35) -/
  sp : Byte
  /-- the program counter (R36) -/
  pc : Word
  /-- the flags (R37 to R43) -/
  flags : Flags
  /-- the scratch of the last resolved instruction, none before the first (R46, R52; log entry 7) -/
  scratch : Option Scratch
  /-- the NMI latch (R47) -/
  nmiPending : Bool
  /-- the IRQ latch (R48) -/
  irqPending : Bool
  /-- the cycle budget (R49) -/
  owed : Nat
  /-- the session status (R50) -/
  status : Status
  /-- whether the session was cancelled (R495, R541) -/
  cancelled : Bool
  /-- internal RAM, 2048 bytes (R79) -/
  ram : Memory
  /-- nametable RAM, 2048 bytes (R89) -/
  vram : Memory
  /-- PRG-RAM, 8192 * prgRamUnits bytes (R125) -/
  prgRam : Memory
  /-- CHR-RAM, 8192 bytes, in use when CHR-ROM size is 0 (R126) -/
  chrRam : Memory
  /-- the cartridge (R98) -/
  cart : Cartridge
  /-- the mapper variant and its registers (R121) -/
  mapper : Mapper
  /-- byte offsets into PRG of the four 8KB CPU windows (R122) -/
  prgWin : Vector Nat 4
  /-- byte offsets into CHR of the eight 1KB picture-unit windows (R122) -/
  chrWin : Vector Nat 8
  /-- the nametable mirroring (R90) -/
  mirroring : Mirroring
  /-- the bus accesses made so far, newest first (R285, R101; log entry 8) -/
  bus : List BusAccess
  /-- the model's own field: the number of oracle draws made so far (R11; log entry 3) -/
  draws : Nat
  deriving DecidableEq, Repr

/-- Why a step stops with a fault. -/
inductive Fault where
  /-- `step` in a state whose status is `Faulted(e)`: "takes no step" (R487). Safe: the spec's machine takes no
  step there either. -/
  | sessionFaulted (e : FaultRecord)
  deriving DecidableEq, Repr

/-- Why a step is refused. -/
inductive Refusal where
  /-- `exec` for an instruction that has no meaning yet (none is left). Safe. -/
  | notModelled (mnemonic : String)
  /-- `step` after `Cancel()`: "after it no step runs. It is not a fault" (R495). Safe: the spec's machine takes
  no step there either. -/
  | sessionCancelled
  deriving DecidableEq, Repr

/-- The cartridge of `State.reset`: mapper 0, 32KB of PRG-ROM, CHR-RAM, one unit of PRG-RAM, every ROM byte 0.
DESIGN CHOICE, log entry 6: `CART` is a parameter (R11), and `State.reset` needs one value of it. -/
def blankCartridge : Cartridge where
  prg := []
  prgUnits := 2
  chr := []
  chrUnits := 0
  prgRamUnits := 1
  mapperNumber := 0
  mirroringBit := false
  battery := false

/-- The machine right after reset (R520, R52, R523) with the blank cartridge and with every `INIT_*` array zero
(log entries 5 and 6). It is `powerOn` of these arguments (`reset_eq_powerOn`). The bus holds the two reads of
the reset vector. -/
def State.reset : State where
  a := 0
  x := 0
  y := 0
  sp := 0xFD
  pc := 0
  flags := { c := false, z := false, i := true, d := false, b := false, v := false, n := false }
  scratch := none
  nmiPending := false
  irqPending := false
  owed := 0
  status := .running
  cancelled := false
  ram := []
  vram := []
  prgRam := []
  chrRam := []
  cart := blankCartridge
  mapper := .nrom
  prgWin := #v[0, 0x2000, 0x4000, 0x6000]
  chrWin := #v[0, 0x400, 0x800, 0xC00, 0x1000, 0x1400, 0x1800, 0x1C00]
  mirroring := .horizontal
  bus := [.read 0xFFFD 0, .read 0xFFFC 0]
  draws := 0

end Sys2Proof.Machine
end

