-- ==== Sys2Proof/Machine/Flags.lean ====
section
/-!
DEFINITION. Register writes and flag computations: the write of A, X or Y (spec/10_state.md R34), the packed
status byte (R44, R45), `SetZN` (spec/00_scope.md R17), and the ALU primitives `AddC`, `SubC`, `Compare`
(spec/42_alu.md R330 to R332). As R13 says, the arithmetic is on unbounded integers and narrowed at the end.
-/
namespace Sys2Proof.Machine

/-- A flag as a number. -/
def bit (b : Bool) : Nat := if b then 1 else 0

/-- `Z <- (v = 0); N <- v[7]` on the flags (R17, R34). -/
def Flags.setZN (f : Flags) (v : Byte) : Flags := { f with z := v == 0, n := v.getLsbD 7 }

/-- `SetZN(v)` (R17). -/
def setZN (v : Byte) (s : State) : State := { s with flags := s.flags.setZN v }

/-- `A <- v` (R34). -/
def setA (v : Byte) (s : State) : State := { s with a := v, flags := s.flags.setZN v }

/-- `X <- v` (R34). -/
def setX (v : Byte) (s : State) : State := { s with x := v, flags := s.flags.setZN v }

/-- `Y <- v` (R34). -/
def setY (v : Byte) (s : State) : State := { s with y := v, flags := s.flags.setZN v }

/-- `Pack(b4)` (R44): bit 4 as given, bit 5 "fixed at 1". -/
def Flags.pack (f : Flags) (b4 : Bool) : Byte :=
  BitVec.ofNat 8 (bit f.c + 2 * bit f.z + 4 * bit f.i + 8 * bit f.d + 16 * bit b4 + 32 + 64 * bit f.v + 128 * bit f.n)

/-- `Unpack(v)` (R45): bit 5 is ignored. -/
def Flags.unpack (v : Byte) : Flags where
  c := v.getLsbD 0
  z := v.getLsbD 1
  i := v.getLsbD 2
  d := v.getLsbD 3
  b := v.getLsbD 4
  v := v.getLsbD 6
  n := v.getLsbD 7

/-- `AddC(m)` (R330). -/
def addC (m : Byte) (s : State) : State :=
  let u := s.a.toNat + m.toNat + bit s.flags.c
  let sv := s.a.toInt + m.toInt + bit s.flags.c
  setA (BitVec.ofNat 8 u)
    { s with flags := { s.flags with c := decide (u > 255), v := decide (sv < -128 ∨ sv > 127) } }

/-- `SubC(m) = AddC(~m mod 256)` (R331): "implement via this identity only". -/
def subC (m : Byte) (s : State) : State := addC (~~~m) s

/-- `Compare(r, m)` (R332): the difference of the two bytes read as unsigned numbers; bit 7 of the difference
is that of its two's complement. -/
def compare (r m : Byte) (s : State) : State :=
  let diff : Int := r.toNat - m.toNat
  { s with flags := { s.flags with
      c := decide (diff ≥ 0)
      z := decide (diff = 0)
      n := (BitVec.ofInt 8 diff).getLsbD 7 && decide (diff ≠ 0) } }

/-- `C <- b`. -/
def setC (b : Bool) (s : State) : State := { s with flags := { s.flags with c := b } }

/-- `(m << 1) mod 256` (R350, R437). -/
def shiftLeft (m : Byte) : Byte := m <<< 1

/-- `m >> 1` (R351, R439, R442). -/
def shiftRight (m : Byte) : Byte := m >>> 1

/-- `((m << 1) | C) mod 256` (R352, R438). -/
def rotateLeft (m : Byte) (c : Bool) : Byte := (m <<< 1) ||| BitVec.ofNat 8 (bit c)

/-- `(m >> 1) | (C << 7)` (R353, R440, R443). -/
def rotateRight (m : Byte) (c : Bool) : Byte := (m >>> 1) ||| BitVec.ofNat 8 (128 * bit c)

end Sys2Proof.Machine
end

