-- ==== Sys2Proof/Machine/Memory.lean ====
section
/-!
DEFINITION. The byte arrays: reading and writing one byte of a canonical list of cells, building one from
bytes, and giving its bytes back. Every array of the block is one of these (RAM, VRAM, PRG-RAM, CHR-RAM,
PRG-ROM, CHR-ROM).
-/
namespace Sys2Proof.Machine

/-- What an index no cell lists reads as. DESIGN CHOICE, log entry 5: the spec leaves the power-on contents open
(R522), and `powerOn` takes them as arguments. -/
def Memory.unlisted (_ : Nat) : Byte := 0

/-- The byte at index `k`. -/
def Memory.get : Memory → Nat → Byte
  | [], k => Memory.unlisted k
  | (j, w) :: m, k => if j = k then w else Memory.get m k

/-- The cell of index `k` and byte `v` put before `m`, or nothing where an unlisted index reads as `v`. -/
def Memory.cell (k : Nat) (v : Byte) (m : Memory) : Memory :=
  if v = Memory.unlisted k then m else (k, v) :: m

/-- The array with byte `v` at index `k`. -/
def Memory.set : Memory → Nat → Byte → Memory
  | [], k, v => Memory.cell k v []
  | (j, w) :: m, k, v =>
    if k < j then Memory.cell k v ((j, w) :: m)
    else if k = j then Memory.cell k v m
    else (j, w) :: Memory.set m k v

/-- The canonical form from index `lo` on: indexes strictly rising and at least `lo`, and no cell equal to what
an unlisted index reads as. -/
def Memory.wfFrom : Nat → Memory → Bool
  | _, [] => true
  | lo, (k, v) :: m => lo ≤ k && v != Memory.unlisted k && Memory.wfFrom (k + 1) m

/-- The canonical form. -/
def Memory.wf (m : Memory) : Bool := Memory.wfFrom 0 m

/-- Whether every listed index is below `n`. -/
def Memory.below (n : Nat) (m : Memory) : Bool := m.all fun c => c.1 < n

/-- The array whose bytes from index `k` on are those of the list. -/
def Memory.ofBytesFrom : Nat → List Byte → Memory
  | _, [] => []
  | k, v :: vs => Memory.cell k v (Memory.ofBytesFrom (k + 1) vs)

/-- The array whose bytes are those of the list. -/
def Memory.ofBytes (vs : List Byte) : Memory := Memory.ofBytesFrom 0 vs

/-- The first `n` bytes of the array. -/
def Memory.toBytes (n : Nat) (m : Memory) : List Byte := (List.range n).map m.get

/-- The array with the bytes of the list written from index `k` on. -/
def Memory.setBytes (m : Memory) : Nat → List Byte → Memory
  | _, [] => m
  | k, v :: vs => Memory.setBytes (m.set k v) (k + 1) vs

end Sys2Proof.Machine
end

