-- ==== Sys2Proof/Machine/Mapper.lean ====
section
/-!
DEFINITION. The cartridge mapper state machines (spec/21_memory_mappers.md): the bank-setting primitives
(R123), each variant's register writes (R130 to R188) and recomputations, the power-on state of each variant
(R121, R131, R143, R174, R175, R188), the MMC3 scanline tick (R171) and the CHR latches (R182 to R187).
Bank numbers are integers and offsets are reduced modulo the array length, as R13 and R123 write them, so that
`LAST8 - 2` of a 16KB image is the bank -1 (log entry 14).
-/
namespace Sys2Proof.Machine

/-! ### Lengths and bank-setting primitives -/

/-- `PRGLEN` (R122). -/
def State.prgLen (s : State) : Nat := 16384 * s.cart.prgUnits

/-- `CHRLEN` (R122, R126): an empty CHR-ROM means an 8192-byte CHR-RAM. -/
def State.chrLen (s : State) : Nat := if s.cart.chrUnits = 0 then 8192 else 8192 * s.cart.chrUnits

/-- The length of PRG-RAM (R125). -/
def State.prgRamLen (s : State) : Nat := 8192 * s.cart.prgRamUnits

/-- `LAST16` (R123). -/
def State.last16 (s : State) : Int := s.prgLen / 0x4000 - 1

/-- `LAST8` (R123). -/
def State.last8 (s : State) : Int := s.prgLen / 0x2000 - 1

/-- The offset of part `part` of bank `b` of `unit` bytes, modulo the array length (R123). -/
def bankOffset (len : Nat) (unit : Nat) (part : Nat) (b : Int) : Nat := ((b * unit + part) % len).toNat

/-- One entry of the PRG offset table. -/
def setPrgWin (w : Fin 4) (off : Nat) (s : State) : State := { s with prgWin := s.prgWin.set w off }

/-- One entry of the CHR offset table. -/
def setChrWin (w : Fin 8) (off : Nat) (s : State) : State := { s with chrWin := s.chrWin.set w off }

/-- `Prg8(w, b)` (R123). -/
def prg8 (w : Fin 4) (b : Int) (s : State) : State := setPrgWin w (bankOffset s.prgLen 0x2000 0 b) s

/-- `Prg16(0, b)` (R123). -/
def prg16Low (b : Int) (s : State) : State :=
  setPrgWin 1 (bankOffset s.prgLen 0x4000 0x2000 b) (setPrgWin 0 (bankOffset s.prgLen 0x4000 0 b) s)

/-- `Prg16(1, b)` (R123). -/
def prg16High (b : Int) (s : State) : State :=
  setPrgWin 3 (bankOffset s.prgLen 0x4000 0x2000 b) (setPrgWin 2 (bankOffset s.prgLen 0x4000 0 b) s)

/-- `Prg32(b)` (R123). -/
def prg32 (b : Int) (s : State) : State :=
  { s with prgWin := #v[bankOffset s.prgLen 0x8000 0 b, bankOffset s.prgLen 0x8000 0x2000 b,
      bankOffset s.prgLen 0x8000 0x4000 b, bankOffset s.prgLen 0x8000 0x6000 b] }

/-- `Chr1(w, b)` (R123). -/
def chr1 (w : Fin 8) (b : Int) (s : State) : State := setChrWin w (bankOffset s.chrLen 0x0400 0 b) s

/-- `Chr4(0, b)` (R123). -/
def chr4Low (b : Int) (s : State) : State :=
  setChrWin 3 (bankOffset s.chrLen 0x1000 0xC00 b) (setChrWin 2 (bankOffset s.chrLen 0x1000 0x800 b)
    (setChrWin 1 (bankOffset s.chrLen 0x1000 0x400 b) (setChrWin 0 (bankOffset s.chrLen 0x1000 0 b) s)))

/-- `Chr4(1, b)` (R123). -/
def chr4High (b : Int) (s : State) : State :=
  setChrWin 7 (bankOffset s.chrLen 0x1000 0xC00 b) (setChrWin 6 (bankOffset s.chrLen 0x1000 0x800 b)
    (setChrWin 5 (bankOffset s.chrLen 0x1000 0x400 b) (setChrWin 4 (bankOffset s.chrLen 0x1000 0 b) s)))

/-- `Chr8(b)` (R123). -/
def chr8 (b : Int) (s : State) : State :=
  { s with chrWin := #v[bankOffset s.chrLen 0x2000 0 b, bankOffset s.chrLen 0x2000 0x400 b,
      bankOffset s.chrLen 0x2000 0x800 b, bankOffset s.chrLen 0x2000 0xC00 b,
      bankOffset s.chrLen 0x2000 0x1000 b, bankOffset s.chrLen 0x2000 0x1400 b,
      bankOffset s.chrLen 0x2000 0x1800 b, bankOffset s.chrLen 0x2000 0x1C00 b] }

/-- A register value as a bank number. -/
def bankNo {n : Nat} (v : BitVec n) : Int := v.toNat

/-! ### MMC1 (R140 to R153) -/

/-- The mirroring that `control[1:0]` names (R146, R151). -/
def mmc1Mirroring (control : BitVec 5) : Mirroring :=
  match control.getLsbD 1, control.getLsbD 0 with
  | false, false => .singleLower
  | false, true => .singleUpper
  | true, false => .vertical
  | true, true => .horizontal

/-- CHR offsets (R150). -/
def mmc1Chr (r : Mmc1) (s : State) : State :=
  if r.control.getLsbD 4 then chr4High (bankNo r.chr1) (chr4Low (bankNo r.chr0) s)
  else chr8 (bankNo (r.chr0 >>> 1)) s

/-- PRG offsets (R149), from `m = control[3:2]` and `b = prg[3:0]`. -/
def mmc1Prg (r : Mmc1) (s : State) : State :=
  let b := bankNo (r.prg.extractLsb' 0 4)
  match r.control.getLsbD 3, r.control.getLsbD 2 with
  | false, _ => prg32 (b / 2) s
  | true, false => prg16High b (prg16Low 0 s)
  | true, true => prg16High s.last16 (prg16Low b s)

/-- `Mmc1Recompute()` (R152): R151, R150, R149 in that order. -/
def mmc1Recompute (r : Mmc1) (s : State) : State :=
  mmc1Prg r (mmc1Chr r { s with mirroring := mmc1Mirroring r.control })

/-- The registers, and the offsets and mirroring recomputed from them. -/
def mmc1Install (r : Mmc1) (s : State) : State := mmc1Recompute r { s with mapper := .mmc1 r }

/-- A reset write (R144). -/
def mmc1Reset (r : Mmc1) : Mmc1 :=
  { r with shift := 0, count := 0, control := (r.control ||| 0x0C) &&& 0x0F }

/-- The registers after a fifth data write completed `value` at `addr` (R141, R145). -/
def mmc1Route (addr : Word) (value : BitVec 5) (r : Mmc1) : Mmc1 :=
  let r := { r with shift := 0, count := 0 }
  match addr.getLsbD 14, addr.getLsbD 13 with
  | false, false => { r with control := value }
  | false, true => { r with chr0 := value }
  | true, false => { r with chr1 := value }
  | true, true => { r with prg := value }

/-- A write of `v` to the MMC1 serial port at `addr` (R141, R142, R144, R145); `s.pc` is the `PC` the filter
compares. -/
def mmc1Write (r : Mmc1) (addr : Word) (v : Byte) (s : State) : State :=
  if r.lastWritePC = some s.pc then s
  else
    let r := { r with lastWritePC := some s.pc }
    if v.getLsbD 7 then mmc1Install (mmc1Reset r) s
    else
      let shift := r.shift ||| ((v.setWidth 5 &&& 1) <<< r.count.val)
      if r.count = 4 then mmc1Install (mmc1Route addr shift r) s
      else { s with mapper := .mmc1 { r with shift := shift, count := r.count + 1 } }

/-! ### MMC3 (R160 to R174) and Namco 108 (R175, R176) -/

/-- PRG offsets (R166). -/
def mmc3Prg (r : Mmc3) (s : State) : State :=
  if r.bankSelect.getLsbD 6 then
    prg8 3 s.last8 (prg8 2 (bankNo r.r[6]) (prg8 1 (bankNo r.r[7]) (prg8 0 (s.last8 - 1) s)))
  else
    prg8 3 s.last8 (prg8 2 (s.last8 - 1) (prg8 1 (bankNo r.r[7]) (prg8 0 (bankNo r.r[6]) s)))

/-- CHR offsets (R167). -/
def mmc3Chr (r : Mmc3) (s : State) : State :=
  if r.bankSelect.getLsbD 7 then
    let s := chr1 3 (bankNo r.r[5]) (chr1 2 (bankNo r.r[4]) (chr1 1 (bankNo r.r[3]) (chr1 0 (bankNo r.r[2]) s)))
    chr1 7 (bankNo (r.r[1] ||| 1)) (chr1 6 (bankNo (r.r[1] &&& 0xFE))
      (chr1 5 (bankNo (r.r[0] ||| 1)) (chr1 4 (bankNo (r.r[0] &&& 0xFE)) s)))
  else
    let s := chr1 3 (bankNo (r.r[1] ||| 1)) (chr1 2 (bankNo (r.r[1] &&& 0xFE))
      (chr1 1 (bankNo (r.r[0] ||| 1)) (chr1 0 (bankNo (r.r[0] &&& 0xFE)) s)))
    chr1 7 (bankNo r.r[5]) (chr1 6 (bankNo r.r[4]) (chr1 5 (bankNo r.r[3]) (chr1 4 (bankNo r.r[2]) s)))

/-- `Mmc3Recompute()` (R167). -/
def mmc3Recompute (r : Mmc3) (s : State) : State := mmc3Chr r (mmc3Prg r s)

/-- The registers, and the offsets recomputed from them. -/
def mmc3Install (r : Mmc3) (s : State) : State := mmc3Recompute r { s with mapper := .mmc3 r }

/-- `mirroring <- Vertical if v[0] = 0 else Horizontal` (R164, R181). -/
def mirroringBit0 (v : Byte) : Mirroring := if v.getLsbD 0 then .horizontal else .vertical

/-- A register write (R161 to R165, R168 to R170, R173), by `(addr >> 13) & 3` and `addr & 1`. -/
def mmc3Write (r : Mmc3) (addr : Word) (v : Byte) (s : State) : State :=
  match addr.getLsbD 14, addr.getLsbD 13, addr.getLsbD 0 with
  | false, false, false => mmc3Install { r with bankSelect := v } s
  | false, false, true =>
    mmc3Install { r with r := r.r.set (r.bankSelect.extractLsb' 0 3).toNat v (r.bankSelect.extractLsb' 0 3).isLt } s
  | false, true, false => { s with mirroring := mirroringBit0 v }
  | false, true, true => s
  | true, false, false => { s with mapper := .mmc3 { r with irqLatch := v } }
  | true, false, true => { s with mapper := .mmc3 { r with irqCounter := 0 } }
  | true, true, false => { s with mapper := .mmc3 { r with irqEnabled := false }, irqPending := false }
  | true, true, true => { s with mapper := .mmc3 { r with irqEnabled := true } }

/-- The counter's part of a scanline tick (R171), for the MMC3 registers. -/
def mmc3Tick (r : Mmc3) (s : State) : State :=
  if r.irqCounter = 0 then { s with mapper := .mmc3 { r with irqCounter := r.irqLatch } }
  else
    { s with
      mapper := .mmc3 { r with irqCounter := r.irqCounter - 1 }
      irqPending := s.irqPending || (r.irqCounter - 1 == 0 && r.irqEnabled) }

/-- `Namco108Recompute()` (R176). -/
def namco108Recompute (r : Namco108) (s : State) : State :=
  let s := prg8 3 s.last8 (prg8 2 (s.last8 - 1) (prg8 1 (bankNo r.r[7]) (prg8 0 (bankNo r.r[6]) s)))
  let s := chr1 3 (bankNo (r.r[1] ||| 1)) (chr1 2 (bankNo (r.r[1] &&& 0xFE))
    (chr1 1 (bankNo (r.r[0] ||| 1)) (chr1 0 (bankNo (r.r[0] &&& 0xFE)) s)))
  chr1 7 (bankNo r.r[5]) (chr1 6 (bankNo r.r[4]) (chr1 5 (bankNo r.r[3]) (chr1 4 (bankNo r.r[2]) s)))

/-- The registers, and the offsets recomputed from them. -/
def namco108Install (r : Namco108) (s : State) : State := namco108Recompute r { s with mapper := .namco108 r }

/-- A register write (R175): only 0x8000-0x9FFF is decoded. -/
def namco108Write (r : Namco108) (addr : Word) (v : Byte) (s : State) : State :=
  match addr.getLsbD 14, addr.getLsbD 13, addr.getLsbD 0 with
  | false, false, false => { s with mapper := .namco108 { r with sel := v.extractLsb' 0 3 } }
  | false, false, true => namco108Install { r with r := r.r.set r.sel.toNat v r.sel.isLt } s
  | _, _, _ => s

/-! ### MMC2 and MMC4 (R180 to R188) -/

/-- CHR offsets, both variants (R184). -/
def latchChr (r : LatchMapper) (s : State) : State :=
  chr4High (bankNo (match r.latch1 with | .fd => r.chrFD1 | .fe => r.chrFE1))
    (chr4Low (bankNo (match r.latch0 with | .fd => r.chrFD0 | .fe => r.chrFE0)) s)

/-- `LatchRecompute()` of MMC2 (R184, R185, R187), with the registers put in place. -/
def mmc2Install (r : LatchMapper) (s : State) : State :=
  let s := latchChr r { s with mapper := .mmc2 r }
  prg8 3 s.last8 (prg8 2 (s.last8 - 1) (prg8 1 (s.last8 - 2) (prg8 0 (bankNo r.prgBank) s)))

/-- `LatchRecompute()` of MMC4 (R184, R186, R187), with the registers put in place. -/
def mmc4Install (r : LatchMapper) (s : State) : State :=
  let s := latchChr r { s with mapper := .mmc4 r }
  prg16High s.last16 (prg16Low (bankNo r.prgBank) s)

/-- The registers after a CPU write of `v` to `addr` (R181), none where the address is ignored. -/
def latchRegWrite (r : LatchMapper) (addr : Word) (v : Byte) : Option LatchMapper :=
  match (addr.extractLsb' 12 4).toNat with
  | 0xA => some { r with prgBank := v.extractLsb' 0 4 }
  | 0xB => some { r with chrFD0 := v.extractLsb' 0 5 }
  | 0xC => some { r with chrFE0 := v.extractLsb' 0 5 }
  | 0xD => some { r with chrFD1 := v.extractLsb' 0 5 }
  | 0xE => some { r with chrFE1 := v.extractLsb' 0 5 }
  | 0xF => some r
  | _ => none

/-- The mirroring after that write (R181): 0xF000-0xFFFF sets it. -/
def latchMirroring (addr : Word) (v : Byte) (m : Mirroring) : Mirroring :=
  if (addr.extractLsb' 12 4).toNat = 0xF then mirroringBit0 v else m

/-- A CPU write to a MMC2 (R181). -/
def mmc2Write (r : LatchMapper) (addr : Word) (v : Byte) (s : State) : State :=
  match latchRegWrite r addr v with
  | none => s
  | some r => mmc2Install r { s with mirroring := latchMirroring addr v s.mirroring }

/-- A CPU write to a MMC4 (R181). -/
def mmc4Write (r : LatchMapper) (addr : Word) (v : Byte) (s : State) : State :=
  match latchRegWrite r addr v with
  | none => s
  | some r => mmc4Install r { s with mirroring := latchMirroring addr v s.mirroring }

/-- Which latch a picture-unit read of `a` sets to what on MMC4 (R182): `(false, l)` is `latch0 <- l`,
`(true, l)` is `latch1 <- l`. -/
def mmc4Trigger (a : PpuAddr) : Option (Bool × Latch) :=
  let n := a.toNat
  if 0x0FD8 ≤ n ∧ n ≤ 0x0FDF then some (false, .fd)
  else if 0x0FE8 ≤ n ∧ n ≤ 0x0FEF then some (false, .fe)
  else if 0x1FD8 ≤ n ∧ n ≤ 0x1FDF then some (true, .fd)
  else if 0x1FE8 ≤ n ∧ n ≤ 0x1FEF then some (true, .fe)
  else none

/-- The same on MMC2 (R182): `latch0` has single trigger addresses. -/
def mmc2Trigger (a : PpuAddr) : Option (Bool × Latch) :=
  let n := a.toNat
  if n = 0x0FD8 then some (false, .fd)
  else if n = 0x0FE8 then some (false, .fe)
  else if 0x1FD8 ≤ n ∧ n ≤ 0x1FDF then some (true, .fd)
  else if 0x1FE8 ≤ n ∧ n ≤ 0x1FEF then some (true, .fe)
  else none

/-- The registers with one latch set. -/
def LatchMapper.withLatch (r : LatchMapper) : Bool × Latch → LatchMapper
  | (false, l) => { r with latch0 := l }
  | (true, l) => { r with latch1 := l }

/-- The side effect of a picture-unit read of `a` in 0x0000-0x1FFF, after its byte was taken (R183). -/
def chrReadEffect (a : PpuAddr) (s : State) : State :=
  match s.mapper with
  | .mmc2 r =>
    match mmc2Trigger a with
    | none => s
    | some t => mmc2Install (r.withLatch t) s
  | .mmc4 r =>
    match mmc4Trigger a with
    | none => s
    | some t => mmc4Install (r.withLatch t) s
  | _ => s

/-! ### All variants -/

/-- A CPU write of `v` to `addr` in 0x8000-0xFFFF: the variant's register-write rule (R124, R130 to R139, R141,
R161, R175, R181). On ColorDreams, GxROM, Camerica, UN1ROM and UNROM-fix-first the register that R131 has the write
replace becomes the whole byte `v`: R135 to R139 give it no width (DESIGN CHOICE, log entry 19). -/
def mapperWrite (addr : Word) (v : Byte) (s : State) : State :=
  match s.mapper with
  | .nrom => s
  | .mmc1 r => mmc1Write r addr v s
  | .uxrom _ => prg16Low (bankNo v) { s with mapper := .uxrom v }
  | .cnrom _ => chr8 (bankNo v) { s with mapper := .cnrom v }
  | .mmc3 r => mmc3Write r addr v s
  | .axrom _ =>
    prg32 (bankNo (v &&& 0x07))
      { s with mapper := .axrom v, mirroring := if v.getLsbD 4 then .singleUpper else .singleLower }
  | .mmc2 r => mmc2Write r addr v s
  | .mmc4 r => mmc4Write r addr v s
  | .colorDreams _ =>
    chr8 (bankNo (v >>> 4)) (prg32 (bankNo (v &&& 0x03)) { s with mapper := .colorDreams v })
  | .gxrom _ =>
    chr8 (bankNo (v &&& 0x03)) (prg32 (bankNo ((v >>> 4) &&& 0x03)) { s with mapper := .gxrom v })
  | .camerica _ =>
    if addr.getLsbD 14 then prg16Low (bankNo (v &&& 0x0F)) { s with mapper := .camerica v } else s
  | .un1rom _ => prg16Low (bankNo ((v >>> 2) &&& 0x07)) { s with mapper := .un1rom v }
  | .unromFixFirst _ => prg16High (bankNo (v &&& 0x07)) { s with mapper := .unromFixFirst v }
  | .namco108 r => namco108Write r addr v s

/-- The MMC1 registers at power-on (R143), from bits 1:0 of `control`. -/
def mmc1PowerOn (mirroring : BitVec 2) : Mmc1 where
  shift := 0
  count := 0
  control := 0x0C ||| mirroring.setWidth 5
  chr0 := 0
  chr1 := 0
  prg := 0
  lastWritePC := none

/-- The MMC3 registers at power-on (R174). -/
def mmc3PowerOn : Mmc3 where
  bankSelect := 0
  r := Vector.replicate 8 0
  irqLatch := 0
  irqCounter := 0
  irqEnabled := false

/-- The MMC2 and MMC4 registers at power-on (R188). -/
def latchPowerOn : LatchMapper where
  prgBank := 0
  chrFD0 := 0
  chrFE0 := 0
  chrFD1 := 0
  chrFE1 := 0
  latch0 := .fe
  latch1 := .fe

/-- The Namco 108 registers at power-on (R175). -/
def namco108PowerOn : Namco108 where
  sel := 0
  r := Vector.replicate 8 0

/-- The variant of a mapper number with its registers at power-on (R121, R131, R521); none for an unknown
number. -/
def mapperOfNumber (n : Nat) : Option Mapper :=
  match n with
  | 0 => some .nrom
  | 1 => some (.mmc1 (mmc1PowerOn Config.mmc1PowerOnMirroring))
  | 2 => some (.uxrom 0)
  | 3 => some (.cnrom 0)
  | 4 => some (.mmc3 mmc3PowerOn)
  | 7 => some (.axrom 0)
  | 9 => some (.mmc2 latchPowerOn)
  | 10 => some (.mmc4 latchPowerOn)
  | 11 => some (.colorDreams 0)
  | 66 => some (.gxrom 0)
  | 71 => some (.camerica 0)
  | 94 => some (.un1rom 0)
  | 180 => some (.unromFixFirst 0)
  | 206 => some (.namco108 namco108PowerOn)
  | _ => none

/-- Power-on of the variant `m` (R130 to R139, R143, R174, R175, R188): its registers, its offsets and its
override of the mirroring, over a state whose mirroring is the header's (R127). -/
def mapperPowerOn (m : Mapper) (s : State) : State :=
  let s := { s with mapper := m }
  match m with
  | .nrom => chr8 0 (prg32 0 s)
  | .mmc1 r => mmc1Install r s
  | .uxrom b => chr8 0 (prg16High s.last16 (prg16Low (bankNo b) s))
  | .cnrom b => chr8 (bankNo b) (prg32 0 s)
  | .mmc3 r => mmc3Install r s
  | .axrom r =>
    chr8 0 (prg32 (bankNo (r &&& 0x07))
      { s with mirroring := if r.getLsbD 4 then .singleUpper else .singleLower })
  | .mmc2 r => mmc2Install r s
  | .mmc4 r => mmc4Install r s
  | .colorDreams r => chr8 (bankNo (r >>> 4)) (prg32 (bankNo (r &&& 0x03)) s)
  | .gxrom r => chr8 (bankNo (r &&& 0x03)) (prg32 (bankNo ((r >>> 4) &&& 0x03)) s)
  | .camerica r => chr8 0 (prg16High s.last16 (prg16Low (bankNo (r &&& 0x0F)) s))
  | .un1rom r => chr8 0 (prg16High s.last16 (prg16Low (bankNo ((r >>> 2) &&& 0x07)) s))
  | .unromFixFirst r => chr8 0 (prg16High (bankNo (r &&& 0x07)) (prg16Low 0 s))
  | .namco108 r => namco108Install r s

end Sys2Proof.Machine
end

