-- ==== Sys2Proof/Machine/Ops.lean ====
section
/-!
DEFINITION. The named operations over memory and registers: the CPU bus dispatcher (spec/20_memory.md R70 to
R85), the primitives of spec/00_scope.md R16, the picture-unit bus (R86 to R91), interrupt and trap entry and the
return from it (spec/60_exceptions.md R475 to R478, spec/43_control_stack_flags.md R392, R393), and the fault
of an unsupported opcode (R480).
-/
namespace Sys2Proof.Machine

/-! ### The CPU bus -/

/-- Whether a CPU read of `a` is an oracle draw: the picture-unit register window and the audio/IO range (R80,
R81). -/
def oracleAddr (a : Word) : Bool := 0x2000 ≤ a.toNat && a.toNat < 0x4020

/-- The RAM index of an address below 0x2000 (R79). -/
def ramIndex (a : Word) : Nat := a.toNat % 0x800

/-- The PRG-ROM index that a CPU address in 0x8000-0xFFFF reads (R124). -/
def State.prgIndex (s : State) (a : Word) : Nat :=
  s.prgWin[(a.toNat - 0x8000) / 0x2000 % 4]'(Nat.mod_lt _ (by decide)) + a.toNat % 0x2000

/-- The byte that a CPU read of `a` returns, by the map of R78. -/
def State.peek (s : State) (a : Word) : Byte :=
  let n := a.toNat
  if n < 0x2000 then s.ram.get (ramIndex a)
  else if n < 0x4000 then Config.ppuRegRead s.draws (a.setWidth 3)
  else if n < 0x4020 then Config.ioRead s.draws a
  else if n < 0x6000 then 0
  else if n < 0x8000 then s.prgRam.get (n - 0x6000)
  else s.cart.prg.get (s.prgIndex a)

/-- A CPU read of `a` that returned `v`, put on the bus record; a read of an oracle draws from it (R77: such
a read is not idempotent). -/
def recordRead (a : Word) (v : Byte) (s : State) : State :=
  { s with bus := .read a v :: s.bus, draws := s.draws + bit (oracleAddr a) }

/-- `MemRead(addr)` (R15, R72): the byte, and the state after the read. -/
def memRead (a : Word) (s : State) : Byte × State := (s.peek a, recordRead a (s.peek a) s)

/-- `MemWrite(addr, v)` (R15, R73), by the map of R78. The writes to 0x2000-0x401F are delivered to the
collaborators and change no state of this block but the record (R80, R81). -/
def memWrite (a : Word) (v : Byte) (s : State) : State :=
  let n := a.toNat
  let s := { s with bus := .write a v :: s.bus }
  if n < 0x2000 then { s with ram := s.ram.set (ramIndex a) v }
  else if n < 0x6000 then s
  else if n < 0x8000 then { s with prgRam := s.prgRam.set (n - 0x6000) v }
  else mapperWrite a v s

/-- `ReadWord(addr)` (R16): the low byte first. -/
def readWord (a : Word) (s : State) : Word × State :=
  let (l, s) := memRead a s
  let (h, s) := memRead (a + 1) s
  (h.pair l, s)

/-- `NextByte()` (R16). -/
def nextByte (s : State) : Byte × State :=
  let (v, s) := memRead s.pc s
  (v, { s with pc := s.pc + 1 })

/-! ### The stack (R16, R35) -/

/-- The address `0x100 + SP`. -/
def stackAddr (sp : Byte) : Word := 0x100 + sp.zext

/-- `Push(v)`. -/
def push (v : Byte) (s : State) : State :=
  let s := memWrite (stackAddr s.sp) v s
  { s with sp := s.sp - 1 }

/-- `Pull()`. -/
def pull (s : State) : Byte × State :=
  let s := { s with sp := s.sp + 1 }
  memRead (stackAddr s.sp) s

/-- `Push16(w)`: the high byte first. -/
def push16 (w : Word) (s : State) : State := push w.lo (push w.hi s)

/-- `Pull16()`: the low byte first. -/
def pull16 (s : State) : Word × State :=
  let (l, s) := pull s
  let (h, s) := pull s
  (h.pair l, s)

/-! ### Interrupts, the trap and the return (R392, R393, R475 to R478) -/

/-- The NMI vector (R475). -/
def nmiVector : Word := 0xFFFA

/-- The reset vector (R475). -/
def resetVector : Word := 0xFFFC

/-- The IRQ and BRK vector (R475). -/
def irqVector : Word := 0xFFFE

/-- Entry through `vector`, shared by NMI, IRQ and BRK: push `PC`, push the status byte with bit 4 as given,
`PC <- ReadWord(vector)` (R476, R393). The flags are unchanged. -/
def takeException (vector : Word) (b4 : Bool) (s : State) : State :=
  let s := push (s.flags.pack b4) (push16 s.pc s)
  let (w, s) := readWord vector s
  { s with pc := w }

/-- The two hardware interrupts (R470). -/
inductive Interrupt where
  | nmi | irq
  deriving DecidableEq, Repr

/-- The vector of an interrupt (R475). -/
def Interrupt.vector : Interrupt → Word
  | .nmi => nmiVector
  | .irq => irqVector

/-- Clearing the latch of an interrupt (R476). -/
def Interrupt.clear : Interrupt → State → State
  | .nmi, s => { s with nmiPending := false }
  | .irq, s => { s with irqPending := false }

/-- `Interrupt(k)` (R476), the whole of an interrupt-entry step. -/
def interrupt (k : Interrupt) (s : State) : State :=
  let s := takeException k.vector false s
  k.clear { s with owed := s.owed + 7 }

/-- RTI (R392, R478): the status byte into the flags, then `PC`. -/
def returnFromInterrupt (s : State) : State :=
  let (p, s) := pull s
  let (w, s) := pull16 { s with flags := Flags.unpack p }
  { s with pc := w }

/-! ### The fault of an unsupported opcode (R480, R445 to R452) -/

/-- `raise UnsupportedOpcode(op, pc0)` (R480, R17), run when only the opcode byte has been consumed: `PC` is put
back to `pc0`, the address it was fetched from, and the status records the two. Nothing else changes. Log
entry 10. -/
def raiseUnsupported (op : Byte) (s : State) : State :=
  let pc0 := s.pc - 1
  { s with pc := pc0, status := .faulted (.unsupportedOpcode op pc0) }

/-- The cause code of a fault record (R481). -/
def FaultRecord.code : FaultRecord → Nat
  | .unsupportedOpcode _ _ => 1
  | .malformedCartridge _ => 2

/-! ### The picture-unit bus (R86 to R91) -/

/-- `NtIndex(a, mirroring)` (R89). -/
def ntIndex (a : PpuAddr) (m : Mirroring) : Nat :=
  let n := (a.toNat - 0x2000) % 0x1000
  let t := n / 0x400
  let o := n % 0x400
  match m with
  | .horizontal => (t / 2) * 0x400 + o
  | .vertical => (t % 2) * 0x400 + o
  | .singleLower => o
  | .singleUpper => 0x400 + o

/-- The CHR index that a picture-unit address below 0x2000 reaches (R126). -/
def State.chrIndex (s : State) (a : PpuAddr) : Nat :=
  s.chrWin[a.toNat / 0x400 % 8]'(Nat.mod_lt _ (by decide)) + a.toNat % 0x400

/-- `CHR` (R126): CHR-ROM, or CHR-RAM where the cartridge has no CHR-ROM. -/
def State.chr (s : State) : Memory := if s.cart.chrUnits = 0 then s.chrRam else s.cart.chr

/-- The byte that a picture-unit read of `a` returns, by the map of R88. -/
def State.ppuPeek (s : State) (a : PpuAddr) : Byte :=
  let n := a.toNat
  if n < 0x2000 then s.chr.get (s.chrIndex a)
  else if n < 0x3F00 then s.vram.get (ntIndex a s.mirroring)
  else Config.paletteRead s.draws a

/-- `PpuRead(addr)` (R86, R87): the address is reduced modulo 0x4000; the byte is taken before the CHR latch
switches (R183). -/
def ppuRead (addr : Nat) (s : State) : Byte × State :=
  let a : PpuAddr := BitVec.ofNat 14 addr
  let v := s.ppuPeek a
  let s := { s with bus := .ppuRead a v :: s.bus, draws := s.draws + bit (0x3F00 ≤ a.toNat) }
  (v, if a.toNat < 0x2000 then chrReadEffect a s else s)

/-- `PpuWrite(addr, v)` (R86 to R91, R126): CHR-ROM ignores it, the palette receives it as an event. -/
def ppuWrite (addr : Nat) (v : Byte) (s : State) : State :=
  let a : PpuAddr := BitVec.ofNat 14 addr
  let n := a.toNat
  let s := { s with bus := .ppuWrite a v :: s.bus }
  if n < 0x2000 then
    if s.cart.chrUnits = 0 then { s with chrRam := s.chrRam.set (s.chrIndex a) v } else s
  else if n < 0x3F00 then { s with vram := s.vram.set (ntIndex a s.mirroring) v }
  else s

/-! ### The events of the observation (R101) -/

/-- What is delivered to a collaborator or drawn from an oracle (R97, R101). -/
inductive Event where
  | ppuRegRead (slot : BitVec 3) (v : Byte)
  | ppuRegWrite (slot : BitVec 3) (v : Byte)
  | ioRead (a : Word) (v : Byte)
  | ioWrite (a : Word) (v : Byte)
  | paletteRead (a : PpuAddr) (v : Byte)
  | paletteWrite (a : PpuAddr) (v : Byte)
  deriving DecidableEq, Repr

/-- The event of a bus access, where it has one (R80, R81, R91). -/
def BusAccess.event? : BusAccess → Option Event
  | .read a v =>
    if oracleAddr a then some (if a.toNat < 0x4000 then .ppuRegRead (a.setWidth 3) v else .ioRead a v) else none
  | .write a v =>
    if oracleAddr a then some (if a.toNat < 0x4000 then .ppuRegWrite (a.setWidth 3) v else .ioWrite a v) else none
  | .ppuRead a v => if 0x3F00 ≤ a.toNat then some (.paletteRead a v) else none
  | .ppuWrite a v => if 0x3F00 ≤ a.toNat then some (.paletteWrite a v) else none

/-- The events so far, oldest first (R101). -/
def State.events (s : State) : List Event := s.bus.reverse.filterMap BusAccess.event?

end Sys2Proof.Machine
end

