-- ==== Sys2Proof/Machine/Operands.lean ====
section
/-!
DEFINITION. The addressing resolver and the operand primitives (spec/40_engine_addressing.md R263 to R282), and
the frame every instruction runs in (R260, R264): resolve once, add the cost, run the operation.
-/
namespace Sys2Proof.Machine

/-- Where a resolved operand is: nowhere, in the accumulator, in the instruction itself (an immediate or a
branch offset, with the address of its byte, R272, R280), or in memory. -/
inductive Place where
  | none
  | acc
  | inline (v : Byte) (a : Word)
  | mem (a : Word)
  deriving DecidableEq, Repr

/-- `ea` of R263. -/
def Place.ea : Place → Ea
  | .none => .none
  | .acc => .acc
  | .inline _ a => .addr a
  | .mem a => .addr a

/-- `a` where `ea = Addr(a)`; no operation asks it of another place (log entry 4). -/
def Place.address : Place → Word
  | .none => Config.noOperandAddress
  | .acc => Config.noOperandAddress
  | .inline _ a => a
  | .mem a => a

/-- `crossed` of an indexed address (R268): the high bytes of the base and of the effective address differ. -/
def pageCross (base ea : Word) : Bool := base.hi != ea.hi

/-- The word at two zero-page or page-wrapped addresses, low byte read first. -/
def readPointer (lowAddr highAddr : Word) (s : State) : Word × State :=
  let (l, s) := memRead lowAddr s
  let (h, s) := memRead highAddr s
  (h.pair l, s)

/-- What a resolve gives: the place of the operand, whether a page was crossed, and the state after the
resolver's own pointer reads. -/
structure Resolved where
  place : Place
  crossed : Bool
  state : State
  deriving DecidableEq, Repr

/-- `Resolve(mode)` (R263, R269 to R282), run when `PC` is past the instruction, whose bytes the operand
holds. -/
def resolve (o : Operand) (s : State) : Resolved :=
  match o with
  | .imp => ⟨.none, false, s⟩
  | .acc => ⟨.acc, false, s⟩
  | .imm v => ⟨.inline v (s.pc - 1), false, s⟩
  | .zp z => ⟨.mem z.zext, false, s⟩
  | .zpx z => ⟨.mem (z + s.x).zext, false, s⟩
  | .zpy z => ⟨.mem (z + s.y).zext, false, s⟩
  | .abs w => ⟨.mem w, false, s⟩
  | .absx w => ⟨.mem (w + s.x.zext), pageCross w (w + s.x.zext), s⟩
  | .absy w => ⟨.mem (w + s.y.zext), pageCross w (w + s.y.zext), s⟩
  | .indx z =>
    let p := z + s.x
    let (w, s) := readPointer p.zext (p + 1).zext s
    ⟨.mem w, false, s⟩
  | .indy z =>
    let (w, s) := readPointer z.zext (z + 1).zext s
    ⟨.mem (w + s.y.zext), pageCross w (w + s.y.zext), s⟩
  | .rel o => ⟨.inline o (s.pc - 1), false, s⟩
  | .ind w =>
    let (t, s) := readPointer w (w.hi.pair (w.lo + 1)) s
    ⟨.mem t, false, s⟩

/-- `OperandRead()` (R265). An immediate byte or a branch offset is the byte the fetch found at its address;
this is the one bus read of it (R272, R280; log entry 9). -/
def operandRead (p : Place) (s : State) : Byte × State :=
  match p with
  | .none => (Config.noOperandByte, s)
  | .acc => (s.a, s)
  | .inline v a => (v, recordRead a v s)
  | .mem a => memRead a s

/-- `OperandWrite(v)` (R266), with the row's read-modify-write flag and the byte `OperandRead` returned. -/
def operandWrite (rmw : Bool) (p : Place) (old v : Byte) (s : State) : State :=
  match p with
  | .none => s
  | .acc => setA v s
  | .inline _ a => if rmw then memWrite a v (memWrite a old s) else memWrite a v s
  | .mem a => if rmw then memWrite a v (memWrite a old s) else memWrite a v s

/-- The base cost and the page penalty of an instruction (R264). -/
def cost (d : Desc) (crossed : Bool) : Nat := d.cycles.getD 0 + bit (d.pagePenalty && crossed)

/-- The scratch and the cost of a resolved instruction (R46, R264). -/
def charge (op : Byte) (r : Resolved) : State :=
  { r.state with
    scratch := some ⟨op, desc op, r.place.ea, r.crossed⟩
    owed := r.state.owed + cost (desc op) r.crossed }

/-- An operation's body: from its row's descriptor and the place of its operand, what it does. -/
abbrev Body := Desc → Place → State → State

/-- One instruction of a supported row: resolve, add the cost, run the operation (R260). It always completes:
"no operation of this hardware can fail other than by rule R262" (R284). -/
def runInstr (op : Byte) (o : Operand) (body : Body) (s : State) : Host.Outcome State Fault Refusal :=
  .next (body (desc op) (resolve o s).place (charge op (resolve o s)))

end Sys2Proof.Machine
end

