-- ==== Sys2Proof/Machine/Alu.lean ====
section
/-!
DEFINITION. The ALU instructions (spec/42_alu.md R333 to R353): the operations over the primitives of Flags.lean,
then one meaning per row. None of them reads `D` (R334).
-/
namespace Sys2Proof.Machine

/-! ### Operations -/

/-- ADC (R335). -/
def opAdc : Body := fun _ p s =>
  let (m, s) := operandRead p s
  addC m s

/-- SBC (R336, R434). -/
def opSbc : Body := fun _ p s =>
  let (m, s) := operandRead p s
  subC m s

/-- AND (R337). -/
def opAnd : Body := fun _ p s =>
  let (m, s) := operandRead p s
  setA (s.a &&& m) s

/-- ORA (R338). -/
def opOra : Body := fun _ p s =>
  let (m, s) := operandRead p s
  setA (s.a ||| m) s

/-- EOR (R339). -/
def opEor : Body := fun _ p s =>
  let (m, s) := operandRead p s
  setA (s.a ^^^ m) s

/-- BIT (R340): `N` and `V` come from the memory byte. -/
def opBit : Body := fun _ p s =>
  let (m, s) := operandRead p s
  { s with flags := { s.flags with z := s.a &&& m == 0, v := m.getLsbD 6, n := m.getLsbD 7 } }

/-- CMP (R341). -/
def opCmp : Body := fun _ p s =>
  let (m, s) := operandRead p s
  compare s.a m s

/-- CPX (R342). -/
def opCpx : Body := fun _ p s =>
  let (m, s) := operandRead p s
  compare s.x m s

/-- CPY (R343). -/
def opCpy : Body := fun _ p s =>
  let (m, s) := operandRead p s
  compare s.y m s

/-- INC (R344, R333). -/
def opInc : Body := fun d p s =>
  let (m, s) := operandRead p s
  let r := m + 1
  setZN r (operandWrite d.rmw p m r s)

/-- DEC (R345, R333). -/
def opDec : Body := fun d p s =>
  let (m, s) := operandRead p s
  let r := m - 1
  setZN r (operandWrite d.rmw p m r s)

/-- INX (R346). -/
def opInx : Body := fun _ _ s => setX (s.x + 1) s

/-- INY (R347). -/
def opIny : Body := fun _ _ s => setY (s.y + 1) s

/-- DEX (R348). -/
def opDex : Body := fun _ _ s => setX (s.x - 1) s

/-- DEY (R349). -/
def opDey : Body := fun _ _ s => setY (s.y - 1) s

/-- ASL (R350). -/
def opAsl : Body := fun d p s =>
  let (m, s) := operandRead p s
  let r := shiftLeft m
  setZN r (setC (m.getLsbD 7) (operandWrite d.rmw p m r s))

/-- LSR (R351). -/
def opLsr : Body := fun d p s =>
  let (m, s) := operandRead p s
  let r := shiftRight m
  setZN r (setC (m.getLsbD 0) (operandWrite d.rmw p m r s))

/-- ROL (R352): the carry rotated in is the one before the instruction. -/
def opRol : Body := fun d p s =>
  let (m, s) := operandRead p s
  let r := rotateLeft m s.flags.c
  setZN r (setC (m.getLsbD 7) (operandWrite d.rmw p m r s))

/-- ROR (R353): the carry rotated in is the one before the instruction. -/
def opRor : Body := fun d p s =>
  let (m, s) := operandRead p s
  let r := rotateRight m s.flags.c
  setZN r (setC (m.getLsbD 0) (operandWrite d.rmw p m r s))

/-! ### Meanings, one per row -/

/-- 0x61 `ADC ($nn,X)` (R335). -/
def execAdcIndx (z : Byte) (s : State) : Host.Outcome State Fault Refusal := runInstr 0x61 (.indx z) opAdc s

/-- 0x65 `ADC $nn` (R335). -/
def execAdcZp (z : Byte) (s : State) : Host.Outcome State Fault Refusal := runInstr 0x65 (.zp z) opAdc s

/-- 0x69 `ADC #$nn` (R335). -/
def execAdcImm (v : Byte) (s : State) : Host.Outcome State Fault Refusal := runInstr 0x69 (.imm v) opAdc s

/-- 0x6D `ADC $nnnn` (R335). -/
def execAdcAbs (w : Word) (s : State) : Host.Outcome State Fault Refusal := runInstr 0x6D (.abs w) opAdc s

/-- 0x71 `ADC ($nn),Y` (R335). -/
def execAdcIndy (z : Byte) (s : State) : Host.Outcome State Fault Refusal := runInstr 0x71 (.indy z) opAdc s

/-- 0x75 `ADC $nn,X` (R335). -/
def execAdcZpx (z : Byte) (s : State) : Host.Outcome State Fault Refusal := runInstr 0x75 (.zpx z) opAdc s

/-- 0x79 `ADC $nnnn,Y` (R335). -/
def execAdcAbsy (w : Word) (s : State) : Host.Outcome State Fault Refusal := runInstr 0x79 (.absy w) opAdc s

/-- 0x7D `ADC $nnnn,X` (R335). -/
def execAdcAbsx (w : Word) (s : State) : Host.Outcome State Fault Refusal := runInstr 0x7D (.absx w) opAdc s

/-- 0xE1 `SBC ($nn,X)` (R336). -/
def execSbcIndx (z : Byte) (s : State) : Host.Outcome State Fault Refusal := runInstr 0xE1 (.indx z) opSbc s

/-- 0xE5 `SBC $nn` (R336). -/
def execSbcZp (z : Byte) (s : State) : Host.Outcome State Fault Refusal := runInstr 0xE5 (.zp z) opSbc s

/-- 0xE9 `SBC #$nn` (R336). -/
def execSbcImm (v : Byte) (s : State) : Host.Outcome State Fault Refusal := runInstr 0xE9 (.imm v) opSbc s

/-- 0xED `SBC $nnnn` (R336). -/
def execSbcAbs (w : Word) (s : State) : Host.Outcome State Fault Refusal := runInstr 0xED (.abs w) opSbc s

/-- 0xF1 `SBC ($nn),Y` (R336). -/
def execSbcIndy (z : Byte) (s : State) : Host.Outcome State Fault Refusal := runInstr 0xF1 (.indy z) opSbc s

/-- 0xF5 `SBC $nn,X` (R336). -/
def execSbcZpx (z : Byte) (s : State) : Host.Outcome State Fault Refusal := runInstr 0xF5 (.zpx z) opSbc s

/-- 0xF9 `SBC $nnnn,Y` (R336). -/
def execSbcAbsy (w : Word) (s : State) : Host.Outcome State Fault Refusal := runInstr 0xF9 (.absy w) opSbc s

/-- 0xFD `SBC $nnnn,X` (R336). -/
def execSbcAbsx (w : Word) (s : State) : Host.Outcome State Fault Refusal := runInstr 0xFD (.absx w) opSbc s

/-- 0x21 `AND ($nn,X)` (R337). -/
def execAndIndx (z : Byte) (s : State) : Host.Outcome State Fault Refusal := runInstr 0x21 (.indx z) opAnd s

/-- 0x25 `AND $nn` (R337). -/
def execAndZp (z : Byte) (s : State) : Host.Outcome State Fault Refusal := runInstr 0x25 (.zp z) opAnd s

/-- 0x29 `AND #$nn` (R337). -/
def execAndImm (v : Byte) (s : State) : Host.Outcome State Fault Refusal := runInstr 0x29 (.imm v) opAnd s

/-- 0x2D `AND $nnnn` (R337). -/
def execAndAbs (w : Word) (s : State) : Host.Outcome State Fault Refusal := runInstr 0x2D (.abs w) opAnd s

/-- 0x31 `AND ($nn),Y` (R337). -/
def execAndIndy (z : Byte) (s : State) : Host.Outcome State Fault Refusal := runInstr 0x31 (.indy z) opAnd s

/-- 0x35 `AND $nn,X` (R337). -/
def execAndZpx (z : Byte) (s : State) : Host.Outcome State Fault Refusal := runInstr 0x35 (.zpx z) opAnd s

/-- 0x39 `AND $nnnn,Y` (R337). -/
def execAndAbsy (w : Word) (s : State) : Host.Outcome State Fault Refusal := runInstr 0x39 (.absy w) opAnd s

/-- 0x3D `AND $nnnn,X` (R337). -/
def execAndAbsx (w : Word) (s : State) : Host.Outcome State Fault Refusal := runInstr 0x3D (.absx w) opAnd s

/-- 0x01 `ORA ($nn,X)` (R338). -/
def execOraIndx (z : Byte) (s : State) : Host.Outcome State Fault Refusal := runInstr 0x01 (.indx z) opOra s

/-- 0x05 `ORA $nn` (R338). -/
def execOraZp (z : Byte) (s : State) : Host.Outcome State Fault Refusal := runInstr 0x05 (.zp z) opOra s

/-- 0x09 `ORA #$nn` (R338). -/
def execOraImm (v : Byte) (s : State) : Host.Outcome State Fault Refusal := runInstr 0x09 (.imm v) opOra s

/-- 0x0D `ORA $nnnn` (R338). -/
def execOraAbs (w : Word) (s : State) : Host.Outcome State Fault Refusal := runInstr 0x0D (.abs w) opOra s

/-- 0x11 `ORA ($nn),Y` (R338). -/
def execOraIndy (z : Byte) (s : State) : Host.Outcome State Fault Refusal := runInstr 0x11 (.indy z) opOra s

/-- 0x15 `ORA $nn,X` (R338). -/
def execOraZpx (z : Byte) (s : State) : Host.Outcome State Fault Refusal := runInstr 0x15 (.zpx z) opOra s

/-- 0x19 `ORA $nnnn,Y` (R338). -/
def execOraAbsy (w : Word) (s : State) : Host.Outcome State Fault Refusal := runInstr 0x19 (.absy w) opOra s

/-- 0x1D `ORA $nnnn,X` (R338). -/
def execOraAbsx (w : Word) (s : State) : Host.Outcome State Fault Refusal := runInstr 0x1D (.absx w) opOra s

/-- 0x41 `EOR ($nn,X)` (R339). -/
def execEorIndx (z : Byte) (s : State) : Host.Outcome State Fault Refusal := runInstr 0x41 (.indx z) opEor s

/-- 0x45 `EOR $nn` (R339). -/
def execEorZp (z : Byte) (s : State) : Host.Outcome State Fault Refusal := runInstr 0x45 (.zp z) opEor s

/-- 0x49 `EOR #$nn` (R339). -/
def execEorImm (v : Byte) (s : State) : Host.Outcome State Fault Refusal := runInstr 0x49 (.imm v) opEor s

/-- 0x4D `EOR $nnnn` (R339). -/
def execEorAbs (w : Word) (s : State) : Host.Outcome State Fault Refusal := runInstr 0x4D (.abs w) opEor s

/-- 0x51 `EOR ($nn),Y` (R339). -/
def execEorIndy (z : Byte) (s : State) : Host.Outcome State Fault Refusal := runInstr 0x51 (.indy z) opEor s

/-- 0x55 `EOR $nn,X` (R339). -/
def execEorZpx (z : Byte) (s : State) : Host.Outcome State Fault Refusal := runInstr 0x55 (.zpx z) opEor s

/-- 0x59 `EOR $nnnn,Y` (R339). -/
def execEorAbsy (w : Word) (s : State) : Host.Outcome State Fault Refusal := runInstr 0x59 (.absy w) opEor s

/-- 0x5D `EOR $nnnn,X` (R339). -/
def execEorAbsx (w : Word) (s : State) : Host.Outcome State Fault Refusal := runInstr 0x5D (.absx w) opEor s

/-- 0x24 `BIT $nn` (R340). -/
def execBitZp (z : Byte) (s : State) : Host.Outcome State Fault Refusal := runInstr 0x24 (.zp z) opBit s

/-- 0x2C `BIT $nnnn` (R340). -/
def execBitAbs (w : Word) (s : State) : Host.Outcome State Fault Refusal := runInstr 0x2C (.abs w) opBit s

/-- 0xC1 `CMP ($nn,X)` (R341). -/
def execCmpIndx (z : Byte) (s : State) : Host.Outcome State Fault Refusal := runInstr 0xC1 (.indx z) opCmp s

/-- 0xC5 `CMP $nn` (R341). -/
def execCmpZp (z : Byte) (s : State) : Host.Outcome State Fault Refusal := runInstr 0xC5 (.zp z) opCmp s

/-- 0xC9 `CMP #$nn` (R341). -/
def execCmpImm (v : Byte) (s : State) : Host.Outcome State Fault Refusal := runInstr 0xC9 (.imm v) opCmp s

/-- 0xCD `CMP $nnnn` (R341). -/
def execCmpAbs (w : Word) (s : State) : Host.Outcome State Fault Refusal := runInstr 0xCD (.abs w) opCmp s

/-- 0xD1 `CMP ($nn),Y` (R341). -/
def execCmpIndy (z : Byte) (s : State) : Host.Outcome State Fault Refusal := runInstr 0xD1 (.indy z) opCmp s

/-- 0xD5 `CMP $nn,X` (R341). -/
def execCmpZpx (z : Byte) (s : State) : Host.Outcome State Fault Refusal := runInstr 0xD5 (.zpx z) opCmp s

/-- 0xD9 `CMP $nnnn,Y` (R341). -/
def execCmpAbsy (w : Word) (s : State) : Host.Outcome State Fault Refusal := runInstr 0xD9 (.absy w) opCmp s

/-- 0xDD `CMP $nnnn,X` (R341). -/
def execCmpAbsx (w : Word) (s : State) : Host.Outcome State Fault Refusal := runInstr 0xDD (.absx w) opCmp s

/-- 0xE0 `CPX #$nn` (R342). -/
def execCpxImm (v : Byte) (s : State) : Host.Outcome State Fault Refusal := runInstr 0xE0 (.imm v) opCpx s

/-- 0xE4 `CPX $nn` (R342). -/
def execCpxZp (z : Byte) (s : State) : Host.Outcome State Fault Refusal := runInstr 0xE4 (.zp z) opCpx s

/-- 0xEC `CPX $nnnn` (R342). -/
def execCpxAbs (w : Word) (s : State) : Host.Outcome State Fault Refusal := runInstr 0xEC (.abs w) opCpx s

/-- 0xC0 `CPY #$nn` (R343). -/
def execCpyImm (v : Byte) (s : State) : Host.Outcome State Fault Refusal := runInstr 0xC0 (.imm v) opCpy s

/-- 0xC4 `CPY $nn` (R343). -/
def execCpyZp (z : Byte) (s : State) : Host.Outcome State Fault Refusal := runInstr 0xC4 (.zp z) opCpy s

/-- 0xCC `CPY $nnnn` (R343). -/
def execCpyAbs (w : Word) (s : State) : Host.Outcome State Fault Refusal := runInstr 0xCC (.abs w) opCpy s

/-- 0xE6 `INC $nn` (R344). -/
def execIncZp (z : Byte) (s : State) : Host.Outcome State Fault Refusal := runInstr 0xE6 (.zp z) opInc s

/-- 0xEE `INC $nnnn` (R344). -/
def execIncAbs (w : Word) (s : State) : Host.Outcome State Fault Refusal := runInstr 0xEE (.abs w) opInc s

/-- 0xF6 `INC $nn,X` (R344). -/
def execIncZpx (z : Byte) (s : State) : Host.Outcome State Fault Refusal := runInstr 0xF6 (.zpx z) opInc s

/-- 0xFE `INC $nnnn,X` (R344). -/
def execIncAbsx (w : Word) (s : State) : Host.Outcome State Fault Refusal := runInstr 0xFE (.absx w) opInc s

/-- 0xC6 `DEC $nn` (R345). -/
def execDecZp (z : Byte) (s : State) : Host.Outcome State Fault Refusal := runInstr 0xC6 (.zp z) opDec s

/-- 0xCE `DEC $nnnn` (R345). -/
def execDecAbs (w : Word) (s : State) : Host.Outcome State Fault Refusal := runInstr 0xCE (.abs w) opDec s

/-- 0xD6 `DEC $nn,X` (R345). -/
def execDecZpx (z : Byte) (s : State) : Host.Outcome State Fault Refusal := runInstr 0xD6 (.zpx z) opDec s

/-- 0xDE `DEC $nnnn,X` (R345). -/
def execDecAbsx (w : Word) (s : State) : Host.Outcome State Fault Refusal := runInstr 0xDE (.absx w) opDec s

/-- 0xE8 `INX` (R346). -/
def execInx (s : State) : Host.Outcome State Fault Refusal := runInstr 0xE8 .imp opInx s

/-- 0xC8 `INY` (R347). -/
def execIny (s : State) : Host.Outcome State Fault Refusal := runInstr 0xC8 .imp opIny s

/-- 0xCA `DEX` (R348). -/
def execDex (s : State) : Host.Outcome State Fault Refusal := runInstr 0xCA .imp opDex s

/-- 0x88 `DEY` (R349). -/
def execDey (s : State) : Host.Outcome State Fault Refusal := runInstr 0x88 .imp opDey s

/-- 0x06 `ASL $nn` (R350). -/
def execAslZp (z : Byte) (s : State) : Host.Outcome State Fault Refusal := runInstr 0x06 (.zp z) opAsl s

/-- 0x0A `ASL A` (R350). -/
def execAslAcc (s : State) : Host.Outcome State Fault Refusal := runInstr 0x0A .acc opAsl s

/-- 0x0E `ASL $nnnn` (R350). -/
def execAslAbs (w : Word) (s : State) : Host.Outcome State Fault Refusal := runInstr 0x0E (.abs w) opAsl s

/-- 0x16 `ASL $nn,X` (R350). -/
def execAslZpx (z : Byte) (s : State) : Host.Outcome State Fault Refusal := runInstr 0x16 (.zpx z) opAsl s

/-- 0x1E `ASL $nnnn,X` (R350). -/
def execAslAbsx (w : Word) (s : State) : Host.Outcome State Fault Refusal := runInstr 0x1E (.absx w) opAsl s

/-- 0x46 `LSR $nn` (R351). -/
def execLsrZp (z : Byte) (s : State) : Host.Outcome State Fault Refusal := runInstr 0x46 (.zp z) opLsr s

/-- 0x4A `LSR A` (R351). -/
def execLsrAcc (s : State) : Host.Outcome State Fault Refusal := runInstr 0x4A .acc opLsr s

/-- 0x4E `LSR $nnnn` (R351). -/
def execLsrAbs (w : Word) (s : State) : Host.Outcome State Fault Refusal := runInstr 0x4E (.abs w) opLsr s

/-- 0x56 `LSR $nn,X` (R351). -/
def execLsrZpx (z : Byte) (s : State) : Host.Outcome State Fault Refusal := runInstr 0x56 (.zpx z) opLsr s

/-- 0x5E `LSR $nnnn,X` (R351). -/
def execLsrAbsx (w : Word) (s : State) : Host.Outcome State Fault Refusal := runInstr 0x5E (.absx w) opLsr s

/-- 0x26 `ROL $nn` (R352). -/
def execRolZp (z : Byte) (s : State) : Host.Outcome State Fault Refusal := runInstr 0x26 (.zp z) opRol s

/-- 0x2A `ROL A` (R352). -/
def execRolAcc (s : State) : Host.Outcome State Fault Refusal := runInstr 0x2A .acc opRol s

/-- 0x2E `ROL $nnnn` (R352). -/
def execRolAbs (w : Word) (s : State) : Host.Outcome State Fault Refusal := runInstr 0x2E (.abs w) opRol s

/-- 0x36 `ROL $nn,X` (R352). -/
def execRolZpx (z : Byte) (s : State) : Host.Outcome State Fault Refusal := runInstr 0x36 (.zpx z) opRol s

/-- 0x3E `ROL $nnnn,X` (R352). -/
def execRolAbsx (w : Word) (s : State) : Host.Outcome State Fault Refusal := runInstr 0x3E (.absx w) opRol s

/-- 0x66 `ROR $nn` (R353). -/
def execRorZp (z : Byte) (s : State) : Host.Outcome State Fault Refusal := runInstr 0x66 (.zp z) opRor s

/-- 0x6A `ROR A` (R353). -/
def execRorAcc (s : State) : Host.Outcome State Fault Refusal := runInstr 0x6A .acc opRor s

/-- 0x6E `ROR $nnnn` (R353). -/
def execRorAbs (w : Word) (s : State) : Host.Outcome State Fault Refusal := runInstr 0x6E (.abs w) opRor s

/-- 0x76 `ROR $nn,X` (R353). -/
def execRorZpx (z : Byte) (s : State) : Host.Outcome State Fault Refusal := runInstr 0x76 (.zpx z) opRor s

/-- 0x7E `ROR $nnnn,X` (R353). -/
def execRorAbsx (w : Word) (s : State) : Host.Outcome State Fault Refusal := runInstr 0x7E (.absx w) opRor s

end Sys2Proof.Machine
end

