-- ==== Sys2Proof/Machine/Control.lean ====
section
/-!
DEFINITION. Branches, jumps, calls and returns, BRK and RTI, the stack and flag instructions and the official
NOP (spec/43_control_stack_flags.md R380 to R405): the operations, then one meaning per row.
-/
namespace Sys2Proof.Machine

/-! ### Operations -/

/-- `Branch(cond)` (R380): `a` is the address of the offset byte. -/
def branch (cond : Flags → Bool) : Body := fun _ p s =>
  let (o, s) := operandRead p s
  if cond s.flags then
    let a := p.address
    let t := a + o.sext + 1
    { s with pc := t, owed := s.owed + 1 + bit (a.hi != t.hi) }
  else s

/-- BPL (R381): branch if `N = 0`. -/
def opBpl : Body := branch fun f => !f.n

/-- BMI (R382): branch if `N = 1`. -/
def opBmi : Body := branch fun f => f.n

/-- BVC (R383): branch if `V = 0`. -/
def opBvc : Body := branch fun f => !f.v

/-- BVS (R384): branch if `V = 1`. -/
def opBvs : Body := branch fun f => f.v

/-- BCC (R385): branch if `C = 0`. -/
def opBcc : Body := branch fun f => !f.c

/-- BCS (R386): branch if `C = 1`. -/
def opBcs : Body := branch fun f => f.c

/-- BNE (R387): branch if `Z = 0`. -/
def opBne : Body := branch fun f => !f.z

/-- BEQ (R388): branch if `Z = 1`. -/
def opBeq : Body := branch fun f => f.z

/-- JMP (R389). -/
def opJmp : Body := fun _ p s => { s with pc := p.address }

/-- JSR (R390): the address of the instruction's last byte is pushed. -/
def opJsr : Body := fun _ p s => { push16 (s.pc - 1) s with pc := p.address }

/-- RTS (R391). -/
def opRts : Body := fun _ _ s =>
  let (w, s) := pull16 s
  { s with pc := w + 1 }

/-- RTI (R392). -/
def opRti : Body := fun _ _ s => returnFromInterrupt s

/-- BRK (R393): the padding byte is read and dropped, and the stored `B` is unchanged. Whether `I` is set is
the open parameter `BRK_SETS_I`. -/
def opBrk : Body := fun _ _ s =>
  let (_, s) := nextByte s
  let s := takeException irqVector true s
  { s with flags := { s.flags with i := s.flags.i || Config.brkSetsI } }

/-- PHA (R394). -/
def opPha : Body := fun _ _ s => push s.a s

/-- PHP (R395): bits 4 and 5 are pushed as 1. -/
def opPhp : Body := fun _ _ s => push (s.flags.pack true) s

/-- PLA (R396). -/
def opPla : Body := fun _ _ s =>
  let (v, s) := pull s
  setA v s

/-- PLP (R397). -/
def opPlp : Body := fun _ _ s =>
  let (v, s) := pull s
  { s with flags := Flags.unpack v }

/-- CLC (R398). -/
def opClc : Body := fun _ _ s => { s with flags := { s.flags with c := false } }

/-- SEC (R399). -/
def opSec : Body := fun _ _ s => { s with flags := { s.flags with c := true } }

/-- CLI (R400). -/
def opCli : Body := fun _ _ s => { s with flags := { s.flags with i := false } }

/-- SEI (R401). -/
def opSei : Body := fun _ _ s => { s with flags := { s.flags with i := true } }

/-- CLD (R402). -/
def opCld : Body := fun _ _ s => { s with flags := { s.flags with d := false } }

/-- SED (R403). -/
def opSed : Body := fun _ _ s => { s with flags := { s.flags with d := true } }

/-- CLV (R404). -/
def opClv : Body := fun _ _ s => { s with flags := { s.flags with v := false } }

/-- NOP (R405, R431): nothing; the operand, where the row has one, is not read. -/
def opNop : Body := fun _ _ s => s

/-! ### Meanings, one per row -/

/-- 0x10 `BPL label` (R381). -/
def execBpl (o : Byte) (s : State) : Host.Outcome State Fault Refusal := runInstr 0x10 (.rel o) opBpl s

/-- 0x30 `BMI label` (R382). -/
def execBmi (o : Byte) (s : State) : Host.Outcome State Fault Refusal := runInstr 0x30 (.rel o) opBmi s

/-- 0x50 `BVC label` (R383). -/
def execBvc (o : Byte) (s : State) : Host.Outcome State Fault Refusal := runInstr 0x50 (.rel o) opBvc s

/-- 0x70 `BVS label` (R384). -/
def execBvs (o : Byte) (s : State) : Host.Outcome State Fault Refusal := runInstr 0x70 (.rel o) opBvs s

/-- 0x90 `BCC label` (R385). -/
def execBcc (o : Byte) (s : State) : Host.Outcome State Fault Refusal := runInstr 0x90 (.rel o) opBcc s

/-- 0xB0 `BCS label` (R386). -/
def execBcs (o : Byte) (s : State) : Host.Outcome State Fault Refusal := runInstr 0xB0 (.rel o) opBcs s

/-- 0xD0 `BNE label` (R387). -/
def execBne (o : Byte) (s : State) : Host.Outcome State Fault Refusal := runInstr 0xD0 (.rel o) opBne s

/-- 0xF0 `BEQ label` (R388). -/
def execBeq (o : Byte) (s : State) : Host.Outcome State Fault Refusal := runInstr 0xF0 (.rel o) opBeq s

/-- 0x4C `JMP $nnnn` (R389). -/
def execJmpAbs (w : Word) (s : State) : Host.Outcome State Fault Refusal := runInstr 0x4C (.abs w) opJmp s

/-- 0x6C `JMP ($nnnn)` (R389). -/
def execJmpInd (w : Word) (s : State) : Host.Outcome State Fault Refusal := runInstr 0x6C (.ind w) opJmp s

/-- 0x20 `JSR $nnnn` (R390). -/
def execJsr (w : Word) (s : State) : Host.Outcome State Fault Refusal := runInstr 0x20 (.abs w) opJsr s

/-- 0x60 `RTS` (R391). -/
def execRts (s : State) : Host.Outcome State Fault Refusal := runInstr 0x60 .imp opRts s

/-- 0x40 `RTI` (R392). -/
def execRti (s : State) : Host.Outcome State Fault Refusal := runInstr 0x40 .imp opRti s

/-- 0x00 `BRK` (R393). -/
def execBrk (s : State) : Host.Outcome State Fault Refusal := runInstr 0x00 .imp opBrk s

/-- 0x48 `PHA` (R394). -/
def execPha (s : State) : Host.Outcome State Fault Refusal := runInstr 0x48 .imp opPha s

/-- 0x08 `PHP` (R395). -/
def execPhp (s : State) : Host.Outcome State Fault Refusal := runInstr 0x08 .imp opPhp s

/-- 0x68 `PLA` (R396). -/
def execPla (s : State) : Host.Outcome State Fault Refusal := runInstr 0x68 .imp opPla s

/-- 0x28 `PLP` (R397). -/
def execPlp (s : State) : Host.Outcome State Fault Refusal := runInstr 0x28 .imp opPlp s

/-- 0x18 `CLC` (R398). -/
def execClc (s : State) : Host.Outcome State Fault Refusal := runInstr 0x18 .imp opClc s

/-- 0x38 `SEC` (R399). -/
def execSec (s : State) : Host.Outcome State Fault Refusal := runInstr 0x38 .imp opSec s

/-- 0x58 `CLI` (R400). -/
def execCli (s : State) : Host.Outcome State Fault Refusal := runInstr 0x58 .imp opCli s

/-- 0x78 `SEI` (R401). -/
def execSei (s : State) : Host.Outcome State Fault Refusal := runInstr 0x78 .imp opSei s

/-- 0xD8 `CLD` (R402). -/
def execCld (s : State) : Host.Outcome State Fault Refusal := runInstr 0xD8 .imp opCld s

/-- 0xF8 `SED` (R403). -/
def execSed (s : State) : Host.Outcome State Fault Refusal := runInstr 0xF8 .imp opSed s

/-- 0xB8 `CLV` (R404). -/
def execClv (s : State) : Host.Outcome State Fault Refusal := runInstr 0xB8 .imp opClv s

/-- 0xEA `NOP` (R405). -/
def execNop (s : State) : Host.Outcome State Fault Refusal := runInstr 0xEA .imp opNop s

end Sys2Proof.Machine
end

