-- ==== Sys2Proof/Machine/LoadStore.lean ====
section
/-!
DEFINITION. Loads, stores and register transfers (spec/41_load_store_transfer.md R300 to R312): the operations,
then one meaning per row.
-/
namespace Sys2Proof.Machine

/-! ### Operations -/

/-- A plain store of `v` (R303 to R305, R433): the row's read-modify-write flag is clear, so the byte is written
once. -/
def operandStore (d : Desc) (p : Place) (v : Byte) (s : State) : State := operandWrite d.rmw p v v s

/-- LDA (R300). -/
def opLda : Body := fun _ p s =>
  let (m, s) := operandRead p s
  setA m s

/-- LDX (R301). -/
def opLdx : Body := fun _ p s =>
  let (m, s) := operandRead p s
  setX m s

/-- LDY (R302). -/
def opLdy : Body := fun _ p s =>
  let (m, s) := operandRead p s
  setY m s

/-- STA (R303). -/
def opSta : Body := fun d p s => operandStore d p s.a s

/-- STX (R304). -/
def opStx : Body := fun d p s => operandStore d p s.x s

/-- STY (R305). -/
def opSty : Body := fun d p s => operandStore d p s.y s

/-- TAX (R306). -/
def opTax : Body := fun _ _ s => setX s.a s

/-- TAY (R307). -/
def opTay : Body := fun _ _ s => setY s.a s

/-- TXA (R308). -/
def opTxa : Body := fun _ _ s => setA s.x s

/-- TYA (R309). -/
def opTya : Body := fun _ _ s => setA s.y s

/-- TSX (R310). -/
def opTsx : Body := fun _ _ s => setX s.sp s

/-- TXS (R311): no flag changes. -/
def opTxs : Body := fun _ _ s => { s with sp := s.x }

/-! ### Meanings, one per row -/

/-- 0xA1 `LDA ($nn,X)` (R300). -/
def execLdaIndx (z : Byte) (s : State) : Host.Outcome State Fault Refusal := runInstr 0xA1 (.indx z) opLda s

/-- 0xA5 `LDA $nn` (R300). -/
def execLdaZp (z : Byte) (s : State) : Host.Outcome State Fault Refusal := runInstr 0xA5 (.zp z) opLda s

/-- 0xA9 `LDA #$nn` (R300). -/
def execLdaImm (v : Byte) (s : State) : Host.Outcome State Fault Refusal := runInstr 0xA9 (.imm v) opLda s

/-- 0xAD `LDA $nnnn` (R300). -/
def execLdaAbs (w : Word) (s : State) : Host.Outcome State Fault Refusal := runInstr 0xAD (.abs w) opLda s

/-- 0xB1 `LDA ($nn),Y` (R300). -/
def execLdaIndy (z : Byte) (s : State) : Host.Outcome State Fault Refusal := runInstr 0xB1 (.indy z) opLda s

/-- 0xB5 `LDA $nn,X` (R300). -/
def execLdaZpx (z : Byte) (s : State) : Host.Outcome State Fault Refusal := runInstr 0xB5 (.zpx z) opLda s

/-- 0xB9 `LDA $nnnn,Y` (R300). -/
def execLdaAbsy (w : Word) (s : State) : Host.Outcome State Fault Refusal := runInstr 0xB9 (.absy w) opLda s

/-- 0xBD `LDA $nnnn,X` (R300). -/
def execLdaAbsx (w : Word) (s : State) : Host.Outcome State Fault Refusal := runInstr 0xBD (.absx w) opLda s

/-- 0xA2 `LDX #$nn` (R301). -/
def execLdxImm (v : Byte) (s : State) : Host.Outcome State Fault Refusal := runInstr 0xA2 (.imm v) opLdx s

/-- 0xA6 `LDX $nn` (R301). -/
def execLdxZp (z : Byte) (s : State) : Host.Outcome State Fault Refusal := runInstr 0xA6 (.zp z) opLdx s

/-- 0xAE `LDX $nnnn` (R301). -/
def execLdxAbs (w : Word) (s : State) : Host.Outcome State Fault Refusal := runInstr 0xAE (.abs w) opLdx s

/-- 0xB6 `LDX $nn,Y` (R301). -/
def execLdxZpy (z : Byte) (s : State) : Host.Outcome State Fault Refusal := runInstr 0xB6 (.zpy z) opLdx s

/-- 0xBE `LDX $nnnn,Y` (R301). -/
def execLdxAbsy (w : Word) (s : State) : Host.Outcome State Fault Refusal := runInstr 0xBE (.absy w) opLdx s

/-- 0xA0 `LDY #$nn` (R302). -/
def execLdyImm (v : Byte) (s : State) : Host.Outcome State Fault Refusal := runInstr 0xA0 (.imm v) opLdy s

/-- 0xA4 `LDY $nn` (R302). -/
def execLdyZp (z : Byte) (s : State) : Host.Outcome State Fault Refusal := runInstr 0xA4 (.zp z) opLdy s

/-- 0xAC `LDY $nnnn` (R302). -/
def execLdyAbs (w : Word) (s : State) : Host.Outcome State Fault Refusal := runInstr 0xAC (.abs w) opLdy s

/-- 0xB4 `LDY $nn,X` (R302). -/
def execLdyZpx (z : Byte) (s : State) : Host.Outcome State Fault Refusal := runInstr 0xB4 (.zpx z) opLdy s

/-- 0xBC `LDY $nnnn,X` (R302). -/
def execLdyAbsx (w : Word) (s : State) : Host.Outcome State Fault Refusal := runInstr 0xBC (.absx w) opLdy s

/-- 0x81 `STA ($nn,X)` (R303). -/
def execStaIndx (z : Byte) (s : State) : Host.Outcome State Fault Refusal := runInstr 0x81 (.indx z) opSta s

/-- 0x85 `STA $nn` (R303). -/
def execStaZp (z : Byte) (s : State) : Host.Outcome State Fault Refusal := runInstr 0x85 (.zp z) opSta s

/-- 0x8D `STA $nnnn` (R303). -/
def execStaAbs (w : Word) (s : State) : Host.Outcome State Fault Refusal := runInstr 0x8D (.abs w) opSta s

/-- 0x91 `STA ($nn),Y` (R303). -/
def execStaIndy (z : Byte) (s : State) : Host.Outcome State Fault Refusal := runInstr 0x91 (.indy z) opSta s

/-- 0x95 `STA $nn,X` (R303). -/
def execStaZpx (z : Byte) (s : State) : Host.Outcome State Fault Refusal := runInstr 0x95 (.zpx z) opSta s

/-- 0x99 `STA $nnnn,Y` (R303). -/
def execStaAbsy (w : Word) (s : State) : Host.Outcome State Fault Refusal := runInstr 0x99 (.absy w) opSta s

/-- 0x9D `STA $nnnn,X` (R303). -/
def execStaAbsx (w : Word) (s : State) : Host.Outcome State Fault Refusal := runInstr 0x9D (.absx w) opSta s

/-- 0x86 `STX $nn` (R304). -/
def execStxZp (z : Byte) (s : State) : Host.Outcome State Fault Refusal := runInstr 0x86 (.zp z) opStx s

/-- 0x8E `STX $nnnn` (R304). -/
def execStxAbs (w : Word) (s : State) : Host.Outcome State Fault Refusal := runInstr 0x8E (.abs w) opStx s

/-- 0x96 `STX $nn,Y` (R304). -/
def execStxZpy (z : Byte) (s : State) : Host.Outcome State Fault Refusal := runInstr 0x96 (.zpy z) opStx s

/-- 0x84 `STY $nn` (R305). -/
def execStyZp (z : Byte) (s : State) : Host.Outcome State Fault Refusal := runInstr 0x84 (.zp z) opSty s

/-- 0x8C `STY $nnnn` (R305). -/
def execStyAbs (w : Word) (s : State) : Host.Outcome State Fault Refusal := runInstr 0x8C (.abs w) opSty s

/-- 0x94 `STY $nn,X` (R305). -/
def execStyZpx (z : Byte) (s : State) : Host.Outcome State Fault Refusal := runInstr 0x94 (.zpx z) opSty s

/-- 0xAA `TAX` (R306). -/
def execTax (s : State) : Host.Outcome State Fault Refusal := runInstr 0xAA .imp opTax s

/-- 0xA8 `TAY` (R307). -/
def execTay (s : State) : Host.Outcome State Fault Refusal := runInstr 0xA8 .imp opTay s

/-- 0x8A `TXA` (R308). -/
def execTxa (s : State) : Host.Outcome State Fault Refusal := runInstr 0x8A .imp opTxa s

/-- 0x98 `TYA` (R309). -/
def execTya (s : State) : Host.Outcome State Fault Refusal := runInstr 0x98 .imp opTya s

/-- 0xBA `TSX` (R310). -/
def execTsx (s : State) : Host.Outcome State Fault Refusal := runInstr 0xBA .imp opTsx s

/-- 0x9A `TXS` (R311). -/
def execTxs (s : State) : Host.Outcome State Fault Refusal := runInstr 0x9A .imp opTxs s

end Sys2Proof.Machine
end

