-- ==== Sys2Proof/Machine/Unofficial.lean ====
section
/-!
DEFINITION. The unofficial operations (spec/44_unofficial.md R430 to R444), then one meaning per row; the rows of
NOP and of SBC (R431, R434) use the operations of the official instructions. "Unofficial rows are decoded and
executed exactly like official ones" (R430).
-/
namespace Sys2Proof.Machine

/-! ### Operations -/

/-- LAX (R432). -/
def opLax : Body := fun _ p s =>
  let (m, s) := operandRead p s
  setX m (setA m s)

/-- SAX (R433): no flag changes. -/
def opSax : Body := fun d p s => operandStore d p (s.a &&& s.x) s

/-- DCP (R435). -/
def opDcp : Body := fun d p s =>
  let (m, s) := operandRead p s
  let r := m - 1
  let s := operandWrite d.rmw p m r s
  compare s.a r s

/-- ISC (R436). -/
def opIsc : Body := fun d p s =>
  let (m, s) := operandRead p s
  let r := m + 1
  subC r (operandWrite d.rmw p m r s)

/-- SLO (R437). -/
def opSlo : Body := fun d p s =>
  let (m, s) := operandRead p s
  let r := shiftLeft m
  let s := setC (m.getLsbD 7) (operandWrite d.rmw p m r s)
  setA (s.a ||| r) s

/-- RLA (R438): the carry rotated in is the one before the instruction. -/
def opRla : Body := fun d p s =>
  let (m, s) := operandRead p s
  let r := rotateLeft m s.flags.c
  let s := setC (m.getLsbD 7) (operandWrite d.rmw p m r s)
  setA (s.a &&& r) s

/-- SRE (R439). -/
def opSre : Body := fun d p s =>
  let (m, s) := operandRead p s
  let r := shiftRight m
  let s := setC (m.getLsbD 0) (operandWrite d.rmw p m r s)
  setA (s.a ^^^ r) s

/-- RRA (R440): the bit rotated out is the carry-in of the addition. -/
def opRra : Body := fun d p s =>
  let (m, s) := operandRead p s
  let r := rotateRight m s.flags.c
  addC r (setC (m.getLsbD 0) (operandWrite d.rmw p m r s))

/-- ANC (R441). -/
def opAnc : Body := fun _ p s =>
  let (m, s) := operandRead p s
  let r := s.a &&& m
  setC (r.getLsbD 7) (setA r s)

/-- ALR (R442). -/
def opAlr : Body := fun _ p s =>
  let (m, s) := operandRead p s
  let t := s.a &&& m
  setA (shiftRight t) (setC (t.getLsbD 0) s)

/-- ARR (R443). -/
def opArr : Body := fun _ p s =>
  let (m, s) := operandRead p s
  let r := rotateRight (s.a &&& m) s.flags.c
  let s := setA r s
  { s with flags := { s.flags with c := r.getLsbD 6, v := r.getLsbD 6 ^^ r.getLsbD 5 } }

/-- AXS (R444): the difference is an integer and the carry-in is not used. -/
def opAxs : Body := fun _ p s =>
  let (m, s) := operandRead p s
  let diff : Int := (s.a &&& s.x).toNat - m.toNat
  setC (decide (diff ≥ 0)) (setX (BitVec.ofInt 8 diff) s)

/-! ### Meanings, one per row -/

/-- 0x04 `NOP $nn` (R431). -/
def execNopZp04 (z : Byte) (s : State) : Host.Outcome State Fault Refusal := runInstr 0x04 (.zp z) opNop s

/-- 0x0C `NOP $nnnn` (R431). -/
def execNopAbs (w : Word) (s : State) : Host.Outcome State Fault Refusal := runInstr 0x0C (.abs w) opNop s

/-- 0x14 `NOP $nn,X` (R431). -/
def execNopZpx14 (z : Byte) (s : State) : Host.Outcome State Fault Refusal := runInstr 0x14 (.zpx z) opNop s

/-- 0x1A `NOP` (R431). -/
def execNop1A (s : State) : Host.Outcome State Fault Refusal := runInstr 0x1A .imp opNop s

/-- 0x1C `NOP $nnnn,X` (R431). -/
def execNopAbsx1C (w : Word) (s : State) : Host.Outcome State Fault Refusal := runInstr 0x1C (.absx w) opNop s

/-- 0x34 `NOP $nn,X` (R431). -/
def execNopZpx34 (z : Byte) (s : State) : Host.Outcome State Fault Refusal := runInstr 0x34 (.zpx z) opNop s

/-- 0x3A `NOP` (R431). -/
def execNop3A (s : State) : Host.Outcome State Fault Refusal := runInstr 0x3A .imp opNop s

/-- 0x3C `NOP $nnnn,X` (R431). -/
def execNopAbsx3C (w : Word) (s : State) : Host.Outcome State Fault Refusal := runInstr 0x3C (.absx w) opNop s

/-- 0x44 `NOP $nn` (R431). -/
def execNopZp44 (z : Byte) (s : State) : Host.Outcome State Fault Refusal := runInstr 0x44 (.zp z) opNop s

/-- 0x54 `NOP $nn,X` (R431). -/
def execNopZpx54 (z : Byte) (s : State) : Host.Outcome State Fault Refusal := runInstr 0x54 (.zpx z) opNop s

/-- 0x5A `NOP` (R431). -/
def execNop5A (s : State) : Host.Outcome State Fault Refusal := runInstr 0x5A .imp opNop s

/-- 0x5C `NOP $nnnn,X` (R431). -/
def execNopAbsx5C (w : Word) (s : State) : Host.Outcome State Fault Refusal := runInstr 0x5C (.absx w) opNop s

/-- 0x64 `NOP $nn` (R431). -/
def execNopZp64 (z : Byte) (s : State) : Host.Outcome State Fault Refusal := runInstr 0x64 (.zp z) opNop s

/-- 0x74 `NOP $nn,X` (R431). -/
def execNopZpx74 (z : Byte) (s : State) : Host.Outcome State Fault Refusal := runInstr 0x74 (.zpx z) opNop s

/-- 0x7A `NOP` (R431). -/
def execNop7A (s : State) : Host.Outcome State Fault Refusal := runInstr 0x7A .imp opNop s

/-- 0x7C `NOP $nnnn,X` (R431). -/
def execNopAbsx7C (w : Word) (s : State) : Host.Outcome State Fault Refusal := runInstr 0x7C (.absx w) opNop s

/-- 0x80 `NOP #$nn` (R431). -/
def execNopImm80 (v : Byte) (s : State) : Host.Outcome State Fault Refusal := runInstr 0x80 (.imm v) opNop s

/-- 0x82 `NOP #$nn` (R431). -/
def execNopImm82 (v : Byte) (s : State) : Host.Outcome State Fault Refusal := runInstr 0x82 (.imm v) opNop s

/-- 0x89 `NOP #$nn` (R431). -/
def execNopImm89 (v : Byte) (s : State) : Host.Outcome State Fault Refusal := runInstr 0x89 (.imm v) opNop s

/-- 0xC2 `NOP #$nn` (R431). -/
def execNopImmC2 (v : Byte) (s : State) : Host.Outcome State Fault Refusal := runInstr 0xC2 (.imm v) opNop s

/-- 0xD4 `NOP $nn,X` (R431). -/
def execNopZpxD4 (z : Byte) (s : State) : Host.Outcome State Fault Refusal := runInstr 0xD4 (.zpx z) opNop s

/-- 0xDA `NOP` (R431). -/
def execNopDA (s : State) : Host.Outcome State Fault Refusal := runInstr 0xDA .imp opNop s

/-- 0xDC `NOP $nnnn,X` (R431). -/
def execNopAbsxDC (w : Word) (s : State) : Host.Outcome State Fault Refusal := runInstr 0xDC (.absx w) opNop s

/-- 0xE2 `NOP #$nn` (R431). -/
def execNopImmE2 (v : Byte) (s : State) : Host.Outcome State Fault Refusal := runInstr 0xE2 (.imm v) opNop s

/-- 0xF4 `NOP $nn,X` (R431). -/
def execNopZpxF4 (z : Byte) (s : State) : Host.Outcome State Fault Refusal := runInstr 0xF4 (.zpx z) opNop s

/-- 0xFA `NOP` (R431). -/
def execNopFA (s : State) : Host.Outcome State Fault Refusal := runInstr 0xFA .imp opNop s

/-- 0xFC `NOP $nnnn,X` (R431). -/
def execNopAbsxFC (w : Word) (s : State) : Host.Outcome State Fault Refusal := runInstr 0xFC (.absx w) opNop s

/-- 0xA3 `LAX ($nn,X)` (R432). -/
def execLaxIndx (z : Byte) (s : State) : Host.Outcome State Fault Refusal := runInstr 0xA3 (.indx z) opLax s

/-- 0xA7 `LAX $nn` (R432). -/
def execLaxZp (z : Byte) (s : State) : Host.Outcome State Fault Refusal := runInstr 0xA7 (.zp z) opLax s

/-- 0xAF `LAX $nnnn` (R432). -/
def execLaxAbs (w : Word) (s : State) : Host.Outcome State Fault Refusal := runInstr 0xAF (.abs w) opLax s

/-- 0xB3 `LAX ($nn),Y` (R432). -/
def execLaxIndy (z : Byte) (s : State) : Host.Outcome State Fault Refusal := runInstr 0xB3 (.indy z) opLax s

/-- 0xB7 `LAX $nn,Y` (R432). -/
def execLaxZpy (z : Byte) (s : State) : Host.Outcome State Fault Refusal := runInstr 0xB7 (.zpy z) opLax s

/-- 0xBF `LAX $nnnn,Y` (R432). -/
def execLaxAbsy (w : Word) (s : State) : Host.Outcome State Fault Refusal := runInstr 0xBF (.absy w) opLax s

/-- 0x83 `SAX ($nn,X)` (R433). -/
def execSaxIndx (z : Byte) (s : State) : Host.Outcome State Fault Refusal := runInstr 0x83 (.indx z) opSax s

/-- 0x87 `SAX $nn` (R433). -/
def execSaxZp (z : Byte) (s : State) : Host.Outcome State Fault Refusal := runInstr 0x87 (.zp z) opSax s

/-- 0x8F `SAX $nnnn` (R433). -/
def execSaxAbs (w : Word) (s : State) : Host.Outcome State Fault Refusal := runInstr 0x8F (.abs w) opSax s

/-- 0x97 `SAX $nn,Y` (R433). -/
def execSaxZpy (z : Byte) (s : State) : Host.Outcome State Fault Refusal := runInstr 0x97 (.zpy z) opSax s

/-- 0xEB `SBC #$nn` (R434). -/
def execSbcImmEB (v : Byte) (s : State) : Host.Outcome State Fault Refusal := runInstr 0xEB (.imm v) opSbc s

/-- 0xC3 `DCP ($nn,X)` (R435). -/
def execDcpIndx (z : Byte) (s : State) : Host.Outcome State Fault Refusal := runInstr 0xC3 (.indx z) opDcp s

/-- 0xC7 `DCP $nn` (R435). -/
def execDcpZp (z : Byte) (s : State) : Host.Outcome State Fault Refusal := runInstr 0xC7 (.zp z) opDcp s

/-- 0xCF `DCP $nnnn` (R435). -/
def execDcpAbs (w : Word) (s : State) : Host.Outcome State Fault Refusal := runInstr 0xCF (.abs w) opDcp s

/-- 0xD3 `DCP ($nn),Y` (R435). -/
def execDcpIndy (z : Byte) (s : State) : Host.Outcome State Fault Refusal := runInstr 0xD3 (.indy z) opDcp s

/-- 0xD7 `DCP $nn,X` (R435). -/
def execDcpZpx (z : Byte) (s : State) : Host.Outcome State Fault Refusal := runInstr 0xD7 (.zpx z) opDcp s

/-- 0xDB `DCP $nnnn,Y` (R435). -/
def execDcpAbsy (w : Word) (s : State) : Host.Outcome State Fault Refusal := runInstr 0xDB (.absy w) opDcp s

/-- 0xDF `DCP $nnnn,X` (R435). -/
def execDcpAbsx (w : Word) (s : State) : Host.Outcome State Fault Refusal := runInstr 0xDF (.absx w) opDcp s

/-- 0xE3 `ISC ($nn,X)` (R436). -/
def execIscIndx (z : Byte) (s : State) : Host.Outcome State Fault Refusal := runInstr 0xE3 (.indx z) opIsc s

/-- 0xE7 `ISC $nn` (R436). -/
def execIscZp (z : Byte) (s : State) : Host.Outcome State Fault Refusal := runInstr 0xE7 (.zp z) opIsc s

/-- 0xEF `ISC $nnnn` (R436). -/
def execIscAbs (w : Word) (s : State) : Host.Outcome State Fault Refusal := runInstr 0xEF (.abs w) opIsc s

/-- 0xF3 `ISC ($nn),Y` (R436). -/
def execIscIndy (z : Byte) (s : State) : Host.Outcome State Fault Refusal := runInstr 0xF3 (.indy z) opIsc s

/-- 0xF7 `ISC $nn,X` (R436). -/
def execIscZpx (z : Byte) (s : State) : Host.Outcome State Fault Refusal := runInstr 0xF7 (.zpx z) opIsc s

/-- 0xFB `ISC $nnnn,Y` (R436). -/
def execIscAbsy (w : Word) (s : State) : Host.Outcome State Fault Refusal := runInstr 0xFB (.absy w) opIsc s

/-- 0xFF `ISC $nnnn,X` (R436). -/
def execIscAbsx (w : Word) (s : State) : Host.Outcome State Fault Refusal := runInstr 0xFF (.absx w) opIsc s

/-- 0x03 `SLO ($nn,X)` (R437). -/
def execSloIndx (z : Byte) (s : State) : Host.Outcome State Fault Refusal := runInstr 0x03 (.indx z) opSlo s

/-- 0x07 `SLO $nn` (R437). -/
def execSloZp (z : Byte) (s : State) : Host.Outcome State Fault Refusal := runInstr 0x07 (.zp z) opSlo s

/-- 0x0F `SLO $nnnn` (R437). -/
def execSloAbs (w : Word) (s : State) : Host.Outcome State Fault Refusal := runInstr 0x0F (.abs w) opSlo s

/-- 0x13 `SLO ($nn),Y` (R437). -/
def execSloIndy (z : Byte) (s : State) : Host.Outcome State Fault Refusal := runInstr 0x13 (.indy z) opSlo s

/-- 0x17 `SLO $nn,X` (R437). -/
def execSloZpx (z : Byte) (s : State) : Host.Outcome State Fault Refusal := runInstr 0x17 (.zpx z) opSlo s

/-- 0x1B `SLO $nnnn,Y` (R437). -/
def execSloAbsy (w : Word) (s : State) : Host.Outcome State Fault Refusal := runInstr 0x1B (.absy w) opSlo s

/-- 0x1F `SLO $nnnn,X` (R437). -/
def execSloAbsx (w : Word) (s : State) : Host.Outcome State Fault Refusal := runInstr 0x1F (.absx w) opSlo s

/-- 0x23 `RLA ($nn,X)` (R438). -/
def execRlaIndx (z : Byte) (s : State) : Host.Outcome State Fault Refusal := runInstr 0x23 (.indx z) opRla s

/-- 0x27 `RLA $nn` (R438). -/
def execRlaZp (z : Byte) (s : State) : Host.Outcome State Fault Refusal := runInstr 0x27 (.zp z) opRla s

/-- 0x2F `RLA $nnnn` (R438). -/
def execRlaAbs (w : Word) (s : State) : Host.Outcome State Fault Refusal := runInstr 0x2F (.abs w) opRla s

/-- 0x33 `RLA ($nn),Y` (R438). -/
def execRlaIndy (z : Byte) (s : State) : Host.Outcome State Fault Refusal := runInstr 0x33 (.indy z) opRla s

/-- 0x37 `RLA $nn,X` (R438). -/
def execRlaZpx (z : Byte) (s : State) : Host.Outcome State Fault Refusal := runInstr 0x37 (.zpx z) opRla s

/-- 0x3B `RLA $nnnn,Y` (R438). -/
def execRlaAbsy (w : Word) (s : State) : Host.Outcome State Fault Refusal := runInstr 0x3B (.absy w) opRla s

/-- 0x3F `RLA $nnnn,X` (R438). -/
def execRlaAbsx (w : Word) (s : State) : Host.Outcome State Fault Refusal := runInstr 0x3F (.absx w) opRla s

/-- 0x43 `SRE ($nn,X)` (R439). -/
def execSreIndx (z : Byte) (s : State) : Host.Outcome State Fault Refusal := runInstr 0x43 (.indx z) opSre s

/-- 0x47 `SRE $nn` (R439). -/
def execSreZp (z : Byte) (s : State) : Host.Outcome State Fault Refusal := runInstr 0x47 (.zp z) opSre s

/-- 0x4F `SRE $nnnn` (R439). -/
def execSreAbs (w : Word) (s : State) : Host.Outcome State Fault Refusal := runInstr 0x4F (.abs w) opSre s

/-- 0x53 `SRE ($nn),Y` (R439). -/
def execSreIndy (z : Byte) (s : State) : Host.Outcome State Fault Refusal := runInstr 0x53 (.indy z) opSre s

/-- 0x57 `SRE $nn,X` (R439). -/
def execSreZpx (z : Byte) (s : State) : Host.Outcome State Fault Refusal := runInstr 0x57 (.zpx z) opSre s

/-- 0x5B `SRE $nnnn,Y` (R439). -/
def execSreAbsy (w : Word) (s : State) : Host.Outcome State Fault Refusal := runInstr 0x5B (.absy w) opSre s

/-- 0x5F `SRE $nnnn,X` (R439). -/
def execSreAbsx (w : Word) (s : State) : Host.Outcome State Fault Refusal := runInstr 0x5F (.absx w) opSre s

/-- 0x63 `RRA ($nn,X)` (R440). -/
def execRraIndx (z : Byte) (s : State) : Host.Outcome State Fault Refusal := runInstr 0x63 (.indx z) opRra s

/-- 0x67 `RRA $nn` (R440). -/
def execRraZp (z : Byte) (s : State) : Host.Outcome State Fault Refusal := runInstr 0x67 (.zp z) opRra s

/-- 0x6F `RRA $nnnn` (R440). -/
def execRraAbs (w : Word) (s : State) : Host.Outcome State Fault Refusal := runInstr 0x6F (.abs w) opRra s

/-- 0x73 `RRA ($nn),Y` (R440). -/
def execRraIndy (z : Byte) (s : State) : Host.Outcome State Fault Refusal := runInstr 0x73 (.indy z) opRra s

/-- 0x77 `RRA $nn,X` (R440). -/
def execRraZpx (z : Byte) (s : State) : Host.Outcome State Fault Refusal := runInstr 0x77 (.zpx z) opRra s

/-- 0x7B `RRA $nnnn,Y` (R440). -/
def execRraAbsy (w : Word) (s : State) : Host.Outcome State Fault Refusal := runInstr 0x7B (.absy w) opRra s

/-- 0x7F `RRA $nnnn,X` (R440). -/
def execRraAbsx (w : Word) (s : State) : Host.Outcome State Fault Refusal := runInstr 0x7F (.absx w) opRra s

/-- 0x0B `ANC #$nn` (R441). -/
def execAncImm0B (v : Byte) (s : State) : Host.Outcome State Fault Refusal := runInstr 0x0B (.imm v) opAnc s

/-- 0x2B `ANC #$nn` (R441). -/
def execAncImm2B (v : Byte) (s : State) : Host.Outcome State Fault Refusal := runInstr 0x2B (.imm v) opAnc s

/-- 0x4B `ALR #$nn` (R442). -/
def execAlr (v : Byte) (s : State) : Host.Outcome State Fault Refusal := runInstr 0x4B (.imm v) opAlr s

/-- 0x6B `ARR #$nn` (R443). -/
def execArr (v : Byte) (s : State) : Host.Outcome State Fault Refusal := runInstr 0x6B (.imm v) opArr s

/-- 0xCB `AXS #$nn` (R444). -/
def execAxs (v : Byte) (s : State) : Host.Outcome State Fault Refusal := runInstr 0xCB (.imm v) opAxs s

end Sys2Proof.Machine
end

