-- ==== Sys2Proof/Machine/Unsupported.lean ====
section
/-!
DEFINITION. The unsupported rows (spec/44_unofficial.md R445 to R452), one meaning per row: "the step raises
UnsupportedOpcode right after the opcode fetch, so no operand byte is consumed, no cost is added and no
register, flag or memory byte changes" (R430). The operand bytes are part of the encoding only.
-/
namespace Sys2Proof.Machine

/-- 0x02 `JAM` (R445). -/
def execJam02 (s : State) : Host.Outcome State Fault Refusal := .next (raiseUnsupported 0x02 s)

/-- 0x12 `JAM` (R445). -/
def execJam12 (s : State) : Host.Outcome State Fault Refusal := .next (raiseUnsupported 0x12 s)

/-- 0x22 `JAM` (R445). -/
def execJam22 (s : State) : Host.Outcome State Fault Refusal := .next (raiseUnsupported 0x22 s)

/-- 0x32 `JAM` (R445). -/
def execJam32 (s : State) : Host.Outcome State Fault Refusal := .next (raiseUnsupported 0x32 s)

/-- 0x42 `JAM` (R445). -/
def execJam42 (s : State) : Host.Outcome State Fault Refusal := .next (raiseUnsupported 0x42 s)

/-- 0x52 `JAM` (R445). -/
def execJam52 (s : State) : Host.Outcome State Fault Refusal := .next (raiseUnsupported 0x52 s)

/-- 0x62 `JAM` (R445). -/
def execJam62 (s : State) : Host.Outcome State Fault Refusal := .next (raiseUnsupported 0x62 s)

/-- 0x72 `JAM` (R445). -/
def execJam72 (s : State) : Host.Outcome State Fault Refusal := .next (raiseUnsupported 0x72 s)

/-- 0x92 `JAM` (R445). -/
def execJam92 (s : State) : Host.Outcome State Fault Refusal := .next (raiseUnsupported 0x92 s)

/-- 0xB2 `JAM` (R445). -/
def execJamB2 (s : State) : Host.Outcome State Fault Refusal := .next (raiseUnsupported 0xB2 s)

/-- 0xD2 `JAM` (R445). -/
def execJamD2 (s : State) : Host.Outcome State Fault Refusal := .next (raiseUnsupported 0xD2 s)

/-- 0xF2 `JAM` (R445). -/
def execJamF2 (s : State) : Host.Outcome State Fault Refusal := .next (raiseUnsupported 0xF2 s)

/-- 0x8B `XAA #$nn` (R446). -/
def execXaa (_ : Byte) (s : State) : Host.Outcome State Fault Refusal := .next (raiseUnsupported 0x8B s)

/-- 0xAB `LXA #$nn` (R447). -/
def execLxa (_ : Byte) (s : State) : Host.Outcome State Fault Refusal := .next (raiseUnsupported 0xAB s)

/-- 0x93 `SHA ($nn),Y` (R448). -/
def execShaIndy (_ : Byte) (s : State) : Host.Outcome State Fault Refusal := .next (raiseUnsupported 0x93 s)

/-- 0x9F `SHA $nnnn,Y` (R448). -/
def execShaAbsy (_ : Word) (s : State) : Host.Outcome State Fault Refusal := .next (raiseUnsupported 0x9F s)

/-- 0x9C `SHY $nnnn,X` (R449). -/
def execShy (_ : Word) (s : State) : Host.Outcome State Fault Refusal := .next (raiseUnsupported 0x9C s)

/-- 0x9E `SHX $nnnn,Y` (R450). -/
def execShx (_ : Word) (s : State) : Host.Outcome State Fault Refusal := .next (raiseUnsupported 0x9E s)

/-- 0x9B `TAS $nnnn,Y` (R451). -/
def execTas (_ : Word) (s : State) : Host.Outcome State Fault Refusal := .next (raiseUnsupported 0x9B s)

/-- 0xBB `LAS $nnnn,Y` (R452). -/
def execLas (_ : Word) (s : State) : Host.Outcome State Fault Refusal := .next (raiseUnsupported 0xBB s)

end Sys2Proof.Machine
end

