-- ==== Sys2Proof/Machine/Dispatch.lean ====
section
/-!
DEFINITION. The dispatch: one arm per row of the opcode table, each a call of that row's meaning.
-/
namespace Sys2Proof.Machine

def exec (i : Instr) (s : State) : Host.Outcome State Fault Refusal :=
  match i with
  | .brk => Sys2Proof.Machine.execBrk s
  | .oraIndx z => Sys2Proof.Machine.execOraIndx z s
  | .jam02 => Sys2Proof.Machine.execJam02 s
  | .sloIndx z => Sys2Proof.Machine.execSloIndx z s
  | .nopZp04 z => Sys2Proof.Machine.execNopZp04 z s
  | .oraZp z => Sys2Proof.Machine.execOraZp z s
  | .aslZp z => Sys2Proof.Machine.execAslZp z s
  | .sloZp z => Sys2Proof.Machine.execSloZp z s
  | .php => Sys2Proof.Machine.execPhp s
  | .oraImm v => Sys2Proof.Machine.execOraImm v s
  | .aslAcc => Sys2Proof.Machine.execAslAcc s
  | .ancImm0B v => Sys2Proof.Machine.execAncImm0B v s
  | .nopAbs w => Sys2Proof.Machine.execNopAbs w s
  | .oraAbs w => Sys2Proof.Machine.execOraAbs w s
  | .aslAbs w => Sys2Proof.Machine.execAslAbs w s
  | .sloAbs w => Sys2Proof.Machine.execSloAbs w s
  | .bpl o => Sys2Proof.Machine.execBpl o s
  | .oraIndy z => Sys2Proof.Machine.execOraIndy z s
  | .jam12 => Sys2Proof.Machine.execJam12 s
  | .sloIndy z => Sys2Proof.Machine.execSloIndy z s
  | .nopZpx14 z => Sys2Proof.Machine.execNopZpx14 z s
  | .oraZpx z => Sys2Proof.Machine.execOraZpx z s
  | .aslZpx z => Sys2Proof.Machine.execAslZpx z s
  | .sloZpx z => Sys2Proof.Machine.execSloZpx z s
  | .clc => Sys2Proof.Machine.execClc s
  | .oraAbsy w => Sys2Proof.Machine.execOraAbsy w s
  | .nop1A => Sys2Proof.Machine.execNop1A s
  | .sloAbsy w => Sys2Proof.Machine.execSloAbsy w s
  | .nopAbsx1C w => Sys2Proof.Machine.execNopAbsx1C w s
  | .oraAbsx w => Sys2Proof.Machine.execOraAbsx w s
  | .aslAbsx w => Sys2Proof.Machine.execAslAbsx w s
  | .sloAbsx w => Sys2Proof.Machine.execSloAbsx w s
  | .jsr w => Sys2Proof.Machine.execJsr w s
  | .andIndx z => Sys2Proof.Machine.execAndIndx z s
  | .jam22 => Sys2Proof.Machine.execJam22 s
  | .rlaIndx z => Sys2Proof.Machine.execRlaIndx z s
  | .bitZp z => Sys2Proof.Machine.execBitZp z s
  | .andZp z => Sys2Proof.Machine.execAndZp z s
  | .rolZp z => Sys2Proof.Machine.execRolZp z s
  | .rlaZp z => Sys2Proof.Machine.execRlaZp z s
  | .plp => Sys2Proof.Machine.execPlp s
  | .andImm v => Sys2Proof.Machine.execAndImm v s
  | .rolAcc => Sys2Proof.Machine.execRolAcc s
  | .ancImm2B v => Sys2Proof.Machine.execAncImm2B v s
  | .bitAbs w => Sys2Proof.Machine.execBitAbs w s
  | .andAbs w => Sys2Proof.Machine.execAndAbs w s
  | .rolAbs w => Sys2Proof.Machine.execRolAbs w s
  | .rlaAbs w => Sys2Proof.Machine.execRlaAbs w s
  | .bmi o => Sys2Proof.Machine.execBmi o s
  | .andIndy z => Sys2Proof.Machine.execAndIndy z s
  | .jam32 => Sys2Proof.Machine.execJam32 s
  | .rlaIndy z => Sys2Proof.Machine.execRlaIndy z s
  | .nopZpx34 z => Sys2Proof.Machine.execNopZpx34 z s
  | .andZpx z => Sys2Proof.Machine.execAndZpx z s
  | .rolZpx z => Sys2Proof.Machine.execRolZpx z s
  | .rlaZpx z => Sys2Proof.Machine.execRlaZpx z s
  | .sec => Sys2Proof.Machine.execSec s
  | .andAbsy w => Sys2Proof.Machine.execAndAbsy w s
  | .nop3A => Sys2Proof.Machine.execNop3A s
  | .rlaAbsy w => Sys2Proof.Machine.execRlaAbsy w s
  | .nopAbsx3C w => Sys2Proof.Machine.execNopAbsx3C w s
  | .andAbsx w => Sys2Proof.Machine.execAndAbsx w s
  | .rolAbsx w => Sys2Proof.Machine.execRolAbsx w s
  | .rlaAbsx w => Sys2Proof.Machine.execRlaAbsx w s
  | .rti => Sys2Proof.Machine.execRti s
  | .eorIndx z => Sys2Proof.Machine.execEorIndx z s
  | .jam42 => Sys2Proof.Machine.execJam42 s
  | .sreIndx z => Sys2Proof.Machine.execSreIndx z s
  | .nopZp44 z => Sys2Proof.Machine.execNopZp44 z s
  | .eorZp z => Sys2Proof.Machine.execEorZp z s
  | .lsrZp z => Sys2Proof.Machine.execLsrZp z s
  | .sreZp z => Sys2Proof.Machine.execSreZp z s
  | .pha => Sys2Proof.Machine.execPha s
  | .eorImm v => Sys2Proof.Machine.execEorImm v s
  | .lsrAcc => Sys2Proof.Machine.execLsrAcc s
  | .alr v => Sys2Proof.Machine.execAlr v s
  | .jmpAbs w => Sys2Proof.Machine.execJmpAbs w s
  | .eorAbs w => Sys2Proof.Machine.execEorAbs w s
  | .lsrAbs w => Sys2Proof.Machine.execLsrAbs w s
  | .sreAbs w => Sys2Proof.Machine.execSreAbs w s
  | .bvc o => Sys2Proof.Machine.execBvc o s
  | .eorIndy z => Sys2Proof.Machine.execEorIndy z s
  | .jam52 => Sys2Proof.Machine.execJam52 s
  | .sreIndy z => Sys2Proof.Machine.execSreIndy z s
  | .nopZpx54 z => Sys2Proof.Machine.execNopZpx54 z s
  | .eorZpx z => Sys2Proof.Machine.execEorZpx z s
  | .lsrZpx z => Sys2Proof.Machine.execLsrZpx z s
  | .sreZpx z => Sys2Proof.Machine.execSreZpx z s
  | .cli => Sys2Proof.Machine.execCli s
  | .eorAbsy w => Sys2Proof.Machine.execEorAbsy w s
  | .nop5A => Sys2Proof.Machine.execNop5A s
  | .sreAbsy w => Sys2Proof.Machine.execSreAbsy w s
  | .nopAbsx5C w => Sys2Proof.Machine.execNopAbsx5C w s
  | .eorAbsx w => Sys2Proof.Machine.execEorAbsx w s
  | .lsrAbsx w => Sys2Proof.Machine.execLsrAbsx w s
  | .sreAbsx w => Sys2Proof.Machine.execSreAbsx w s
  | .rts => Sys2Proof.Machine.execRts s
  | .adcIndx z => Sys2Proof.Machine.execAdcIndx z s
  | .jam62 => Sys2Proof.Machine.execJam62 s
  | .rraIndx z => Sys2Proof.Machine.execRraIndx z s
  | .nopZp64 z => Sys2Proof.Machine.execNopZp64 z s
  | .adcZp z => Sys2Proof.Machine.execAdcZp z s
  | .rorZp z => Sys2Proof.Machine.execRorZp z s
  | .rraZp z => Sys2Proof.Machine.execRraZp z s
  | .pla => Sys2Proof.Machine.execPla s
  | .adcImm v => Sys2Proof.Machine.execAdcImm v s
  | .rorAcc => Sys2Proof.Machine.execRorAcc s
  | .arr v => Sys2Proof.Machine.execArr v s
  | .jmpInd w => Sys2Proof.Machine.execJmpInd w s
  | .adcAbs w => Sys2Proof.Machine.execAdcAbs w s
  | .rorAbs w => Sys2Proof.Machine.execRorAbs w s
  | .rraAbs w => Sys2Proof.Machine.execRraAbs w s
  | .bvs o => Sys2Proof.Machine.execBvs o s
  | .adcIndy z => Sys2Proof.Machine.execAdcIndy z s
  | .jam72 => Sys2Proof.Machine.execJam72 s
  | .rraIndy z => Sys2Proof.Machine.execRraIndy z s
  | .nopZpx74 z => Sys2Proof.Machine.execNopZpx74 z s
  | .adcZpx z => Sys2Proof.Machine.execAdcZpx z s
  | .rorZpx z => Sys2Proof.Machine.execRorZpx z s
  | .rraZpx z => Sys2Proof.Machine.execRraZpx z s
  | .sei => Sys2Proof.Machine.execSei s
  | .adcAbsy w => Sys2Proof.Machine.execAdcAbsy w s
  | .nop7A => Sys2Proof.Machine.execNop7A s
  | .rraAbsy w => Sys2Proof.Machine.execRraAbsy w s
  | .nopAbsx7C w => Sys2Proof.Machine.execNopAbsx7C w s
  | .adcAbsx w => Sys2Proof.Machine.execAdcAbsx w s
  | .rorAbsx w => Sys2Proof.Machine.execRorAbsx w s
  | .rraAbsx w => Sys2Proof.Machine.execRraAbsx w s
  | .nopImm80 v => Sys2Proof.Machine.execNopImm80 v s
  | .staIndx z => Sys2Proof.Machine.execStaIndx z s
  | .nopImm82 v => Sys2Proof.Machine.execNopImm82 v s
  | .saxIndx z => Sys2Proof.Machine.execSaxIndx z s
  | .styZp z => Sys2Proof.Machine.execStyZp z s
  | .staZp z => Sys2Proof.Machine.execStaZp z s
  | .stxZp z => Sys2Proof.Machine.execStxZp z s
  | .saxZp z => Sys2Proof.Machine.execSaxZp z s
  | .dey => Sys2Proof.Machine.execDey s
  | .nopImm89 v => Sys2Proof.Machine.execNopImm89 v s
  | .txa => Sys2Proof.Machine.execTxa s
  | .xaa v => Sys2Proof.Machine.execXaa v s
  | .styAbs w => Sys2Proof.Machine.execStyAbs w s
  | .staAbs w => Sys2Proof.Machine.execStaAbs w s
  | .stxAbs w => Sys2Proof.Machine.execStxAbs w s
  | .saxAbs w => Sys2Proof.Machine.execSaxAbs w s
  | .bcc o => Sys2Proof.Machine.execBcc o s
  | .staIndy z => Sys2Proof.Machine.execStaIndy z s
  | .jam92 => Sys2Proof.Machine.execJam92 s
  | .shaIndy z => Sys2Proof.Machine.execShaIndy z s
  | .styZpx z => Sys2Proof.Machine.execStyZpx z s
  | .staZpx z => Sys2Proof.Machine.execStaZpx z s
  | .stxZpy z => Sys2Proof.Machine.execStxZpy z s
  | .saxZpy z => Sys2Proof.Machine.execSaxZpy z s
  | .tya => Sys2Proof.Machine.execTya s
  | .staAbsy w => Sys2Proof.Machine.execStaAbsy w s
  | .txs => Sys2Proof.Machine.execTxs s
  | .tas w => Sys2Proof.Machine.execTas w s
  | .shy w => Sys2Proof.Machine.execShy w s
  | .staAbsx w => Sys2Proof.Machine.execStaAbsx w s
  | .shx w => Sys2Proof.Machine.execShx w s
  | .shaAbsy w => Sys2Proof.Machine.execShaAbsy w s
  | .ldyImm v => Sys2Proof.Machine.execLdyImm v s
  | .ldaIndx z => Sys2Proof.Machine.execLdaIndx z s
  | .ldxImm v => Sys2Proof.Machine.execLdxImm v s
  | .laxIndx z => Sys2Proof.Machine.execLaxIndx z s
  | .ldyZp z => Sys2Proof.Machine.execLdyZp z s
  | .ldaZp z => Sys2Proof.Machine.execLdaZp z s
  | .ldxZp z => Sys2Proof.Machine.execLdxZp z s
  | .laxZp z => Sys2Proof.Machine.execLaxZp z s
  | .tay => Sys2Proof.Machine.execTay s
  | .ldaImm v => Sys2Proof.Machine.execLdaImm v s
  | .tax => Sys2Proof.Machine.execTax s
  | .lxa v => Sys2Proof.Machine.execLxa v s
  | .ldyAbs w => Sys2Proof.Machine.execLdyAbs w s
  | .ldaAbs w => Sys2Proof.Machine.execLdaAbs w s
  | .ldxAbs w => Sys2Proof.Machine.execLdxAbs w s
  | .laxAbs w => Sys2Proof.Machine.execLaxAbs w s
  | .bcs o => Sys2Proof.Machine.execBcs o s
  | .ldaIndy z => Sys2Proof.Machine.execLdaIndy z s
  | .jamB2 => Sys2Proof.Machine.execJamB2 s
  | .laxIndy z => Sys2Proof.Machine.execLaxIndy z s
  | .ldyZpx z => Sys2Proof.Machine.execLdyZpx z s
  | .ldaZpx z => Sys2Proof.Machine.execLdaZpx z s
  | .ldxZpy z => Sys2Proof.Machine.execLdxZpy z s
  | .laxZpy z => Sys2Proof.Machine.execLaxZpy z s
  | .clv => Sys2Proof.Machine.execClv s
  | .ldaAbsy w => Sys2Proof.Machine.execLdaAbsy w s
  | .tsx => Sys2Proof.Machine.execTsx s
  | .las w => Sys2Proof.Machine.execLas w s
  | .ldyAbsx w => Sys2Proof.Machine.execLdyAbsx w s
  | .ldaAbsx w => Sys2Proof.Machine.execLdaAbsx w s
  | .ldxAbsy w => Sys2Proof.Machine.execLdxAbsy w s
  | .laxAbsy w => Sys2Proof.Machine.execLaxAbsy w s
  | .cpyImm v => Sys2Proof.Machine.execCpyImm v s
  | .cmpIndx z => Sys2Proof.Machine.execCmpIndx z s
  | .nopImmC2 v => Sys2Proof.Machine.execNopImmC2 v s
  | .dcpIndx z => Sys2Proof.Machine.execDcpIndx z s
  | .cpyZp z => Sys2Proof.Machine.execCpyZp z s
  | .cmpZp z => Sys2Proof.Machine.execCmpZp z s
  | .decZp z => Sys2Proof.Machine.execDecZp z s
  | .dcpZp z => Sys2Proof.Machine.execDcpZp z s
  | .iny => Sys2Proof.Machine.execIny s
  | .cmpImm v => Sys2Proof.Machine.execCmpImm v s
  | .dex => Sys2Proof.Machine.execDex s
  | .axs v => Sys2Proof.Machine.execAxs v s
  | .cpyAbs w => Sys2Proof.Machine.execCpyAbs w s
  | .cmpAbs w => Sys2Proof.Machine.execCmpAbs w s
  | .decAbs w => Sys2Proof.Machine.execDecAbs w s
  | .dcpAbs w => Sys2Proof.Machine.execDcpAbs w s
  | .bne o => Sys2Proof.Machine.execBne o s
  | .cmpIndy z => Sys2Proof.Machine.execCmpIndy z s
  | .jamD2 => Sys2Proof.Machine.execJamD2 s
  | .dcpIndy z => Sys2Proof.Machine.execDcpIndy z s
  | .nopZpxD4 z => Sys2Proof.Machine.execNopZpxD4 z s
  | .cmpZpx z => Sys2Proof.Machine.execCmpZpx z s
  | .decZpx z => Sys2Proof.Machine.execDecZpx z s
  | .dcpZpx z => Sys2Proof.Machine.execDcpZpx z s
  | .cld => Sys2Proof.Machine.execCld s
  | .cmpAbsy w => Sys2Proof.Machine.execCmpAbsy w s
  | .nopDA => Sys2Proof.Machine.execNopDA s
  | .dcpAbsy w => Sys2Proof.Machine.execDcpAbsy w s
  | .nopAbsxDC w => Sys2Proof.Machine.execNopAbsxDC w s
  | .cmpAbsx w => Sys2Proof.Machine.execCmpAbsx w s
  | .decAbsx w => Sys2Proof.Machine.execDecAbsx w s
  | .dcpAbsx w => Sys2Proof.Machine.execDcpAbsx w s
  | .cpxImm v => Sys2Proof.Machine.execCpxImm v s
  | .sbcIndx z => Sys2Proof.Machine.execSbcIndx z s
  | .nopImmE2 v => Sys2Proof.Machine.execNopImmE2 v s
  | .iscIndx z => Sys2Proof.Machine.execIscIndx z s
  | .cpxZp z => Sys2Proof.Machine.execCpxZp z s
  | .sbcZp z => Sys2Proof.Machine.execSbcZp z s
  | .incZp z => Sys2Proof.Machine.execIncZp z s
  | .iscZp z => Sys2Proof.Machine.execIscZp z s
  | .inx => Sys2Proof.Machine.execInx s
  | .sbcImm v => Sys2Proof.Machine.execSbcImm v s
  | .nop => Sys2Proof.Machine.execNop s
  | .sbcImmEB v => Sys2Proof.Machine.execSbcImmEB v s
  | .cpxAbs w => Sys2Proof.Machine.execCpxAbs w s
  | .sbcAbs w => Sys2Proof.Machine.execSbcAbs w s
  | .incAbs w => Sys2Proof.Machine.execIncAbs w s
  | .iscAbs w => Sys2Proof.Machine.execIscAbs w s
  | .beq o => Sys2Proof.Machine.execBeq o s
  | .sbcIndy z => Sys2Proof.Machine.execSbcIndy z s
  | .jamF2 => Sys2Proof.Machine.execJamF2 s
  | .iscIndy z => Sys2Proof.Machine.execIscIndy z s
  | .nopZpxF4 z => Sys2Proof.Machine.execNopZpxF4 z s
  | .sbcZpx z => Sys2Proof.Machine.execSbcZpx z s
  | .incZpx z => Sys2Proof.Machine.execIncZpx z s
  | .iscZpx z => Sys2Proof.Machine.execIscZpx z s
  | .sed => Sys2Proof.Machine.execSed s
  | .sbcAbsy w => Sys2Proof.Machine.execSbcAbsy w s
  | .nopFA => Sys2Proof.Machine.execNopFA s
  | .iscAbsy w => Sys2Proof.Machine.execIscAbsy w s
  | .nopAbsxFC w => Sys2Proof.Machine.execNopAbsxFC w s
  | .sbcAbsx w => Sys2Proof.Machine.execSbcAbsx w s
  | .incAbsx w => Sys2Proof.Machine.execIncAbsx w s
  | .iscAbsx w => Sys2Proof.Machine.execIscAbsx w s

end Sys2Proof.Machine
end

