-- ==== Sys2Proof/Machine/Fetch.lean ====
section
/-!
DEFINITION. Fetching an instruction (spec/40_engine_addressing.md R260 to R263, R269 to R282) and placing one
where the engine will fetch it.
-/
namespace Sys2Proof.Machine

/-- The instruction at `PC`: the decoding of the three bytes that `NextByte` would give one after another. A row
shorter than three bytes does not look at the later ones. -/
def fetchInstr (s : State) : Instr :=
  let (b0, s) := nextByte s
  let (b1, s) := nextByte s
  let (b2, _) := nextByte s
  decode3 b0 b1 b2

/-- The state in which an instruction of descriptor `d` runs, from the state in which it is fetched: the opcode
byte and the operand bytes that the resolver takes with `NextByte` are read, an immediate byte or branch offset
is skipped without a read (R272, R280, R282), and an unsupported row is left after its opcode byte (R260). -/
def afterFetch (d : Desc) (s : State) : State :=
  let s := (nextByte s).2
  match d.cls with
  | .unsupported => s
  | .official | .unofficial =>
    match d.mode with
    | .imp | .acc => s
    | .imm | .rel => { s with pc := s.pc + 1 }
    | .zp | .zpx | .zpy | .indx | .indy => (nextByte s).2
    | .abs | .absx | .absy | .ind => (nextByte (nextByte s).2).2

/-- The fetch of one instruction: what is fetched, and the state in which it runs. -/
def fetch (s : State) : Instr × State :=
  let i := fetchInstr s
  (i, afterFetch (desc i.opcode) s)

/-- Whether the bytes at `a`, `a + 1` and `a + 2` can be held by the block's memories (RAM, PRG-RAM, PRG-ROM). -/
def holdsCode (a : Word) : Bool :=
  let ok (a : Word) : Bool := a.toNat < 0x2000 || 0x6000 ≤ a.toNat
  ok a && ok (a + 1) && ok (a + 2)

/-- Byte `v` put where a read of `a` finds it: in RAM, in PRG-RAM, or in the cartridge's PRG-ROM (as a program
is put there when the cartridge is made). -/
def placeByte (a : Word) (v : Byte) (s : State) : State :=
  let n := a.toNat
  if n < 0x2000 then { s with ram := s.ram.set (ramIndex a) v }
  else if n < 0x6000 then s
  else if n < 0x8000 then { s with prgRam := s.prgRam.set (n - 0x6000) v }
  else { s with cart := { s.cart with prg := s.cart.prg.set (s.prgIndex a) v } }

/-- The first three bytes of a list put at `a`. -/
def placeBytes (a : Word) (bs : List Byte) (s : State) : State :=
  placeByte (a + 2) (bs.getD 2 0) (placeByte (a + 1) (bs.getD 1 0) (placeByte a (bs.getD 0 0) s))

/-- The state made ready to fetch at `PC`: running, no interrupt to be taken, and `PC` where code can be held (0x0200
if it is not). Log entry 6. -/
def readyToFetch (s : State) : State :=
  { s with
    pc := if holdsCode s.pc then s.pc else 0x0200
    nmiPending := false
    irqPending := s.irqPending && s.flags.i
    status := .running
    cancelled := false }

/-- The state whose next step fetches the instruction with these bytes. -/
def placeInstr (bs : List Byte) (s : State) : State := placeBytes (readyToFetch s).pc bs (readyToFetch s)

end Sys2Proof.Machine
end

