-- ==== Sys2Proof/Machine/Step.lean ====
section
/-!
DEFINITION. One step of the engine (spec/40_engine_addressing.md R260, spec/60_exceptions.md R473, R474, R487,
R495) and the placing of one instruction where it will be fetched.
-/
namespace Sys2Proof.Machine

/-- `Step()` (R260): the status, then NMI, then IRQ with `I`, and only then a fetch. A faulted session and a
cancelled one take no step. -/
def step (s : State) : Host.Outcome State Fault Refusal :=
  match s.status with
  | .faulted e => .fault (.sessionFaulted e)
  | .running =>
    if s.cancelled then .refused .sessionCancelled
    else if s.nmiPending then .next (interrupt .nmi s)
    else if s.irqPending && !s.flags.i then .next (interrupt .irq s)
    else exec (fetch s).1 (fetch s).2

/-- `s` with the instruction whose bits are `w` (`nbits` of them, the bits above zero) where the next step
fetches. Log entry 6. -/
def State.withFetchWord (s : State) (nbits w : Nat) : State := placeInstr (tableBytes nbits w) s

end Sys2Proof.Machine
end

