-- ==== Sys2Proof/Machine/Cartridge.lean ====
section
/-!
DEFINITION. The cartridge image and the power-on construction (spec/20_memory.md R97 to R99,
spec/60_exceptions.md R482, spec/70_reset_and_hazards.md R520 to R523).
-/
namespace Sys2Proof.Machine

/-- The power-on contents of the four RAM arrays, the open parameters `INIT_RAM`, `INIT_VRAM`, `INIT_PRGRAM` and
`INIT_CHRRAM` (R11, R522). A list shorter than its array stands for one that is 0 from there on, and what a
longer one has beyond the array's length is not used (log entry 5). -/
structure Init where
  ram : List Byte
  vram : List Byte
  prgRam : List Byte
  chrRam : List Byte
  deriving DecidableEq, Repr

/-- Every array zero. -/
def Init.zero : Init := ⟨[], [], [], []⟩

/-- The magic of the header (R98). -/
def cartridgeMagic : List Byte := [0x4E, 0x45, 0x53, 0x1A]

/-- `CART.mapper = (byte7 & 0xF0) | (byte6 >> 4)` (R98). -/
def headerMapper (image : List Byte) : Byte := (image.getD 7 0 &&& (0xF0 : Byte)) ||| (image.getD 6 0 >>> 4)

/-- Where the PRG-ROM bytes begin (R98): after the 16 bytes of header, and after the 512 bytes of the trainer
where there is one. -/
def headerPrgStart (image : List Byte) : Nat := if (image.getD 6 0).getLsbD 2 then 16 + 512 else 16

/-- The number of PRG-ROM bytes the header declares. -/
def headerPrgLen (image : List Byte) : Nat := 16384 * (image.getD 4 0).toNat

/-- The number of CHR-ROM bytes the header declares. -/
def headerChrLen (image : List Byte) : Nat := 8192 * (image.getD 5 0).toNat

/-- The fields of a cartridge image (R98). -/
def parseFields (image : List Byte) : Cartridge where
  prg := Memory.ofBytes ((image.drop (headerPrgStart image)).take (headerPrgLen image))
  prgUnits := (image.getD 4 0).toNat
  chr := Memory.ofBytes ((image.drop (headerPrgStart image + headerPrgLen image)).take (headerChrLen image))
  chrUnits := (image.getD 5 0).toNat
  prgRamUnits := max 1 (image.getD 8 0).toNat
  mapperNumber := headerMapper image
  mirroringBit := (image.getD 6 0).getLsbD 0
  battery := (image.getD 6 0).getLsbD 1

/-- Parsing a cartridge image: its fields and the variant of its mapper, or the first reason of R99 that
holds. -/
def parseCartridge (image : List Byte) : Except MalformedReason (Cartridge × Mapper) :=
  if image.length < 16 then .error .truncated
  else if image.take 4 != cartridgeMagic then .error .badMagic
  else
    match mapperOfNumber (headerMapper image).toNat with
    | none => .error (.unknownMapper (headerMapper image).toNat)
    | some m =>
      if image.getD 4 0 = 0 then .error .noPrgRom
      else if image.length < headerPrgStart image + headerPrgLen image + headerChrLen image then .error .truncated
      else .ok (parseFields image, m)

/-- The state before the mapper's power-on: the arrays, the registers and the flags of R520. -/
def constructed (cart : Cartridge) (m : Mapper) (init : Init) : State where
  a := 0
  x := 0
  y := 0
  sp := 0xFD
  pc := 0
  flags := { c := false, z := false, i := true, d := false, b := false, v := false, n := false }
  scratch := none
  nmiPending := false
  irqPending := false
  owed := 0
  status := .running
  cancelled := false
  ram := Memory.ofBytes (init.ram.take 2048)
  vram := Memory.ofBytes (init.vram.take 2048)
  prgRam := Memory.ofBytes (init.prgRam.take (8192 * cart.prgRamUnits))
  chrRam := if cart.chrUnits = 0 then Memory.ofBytes (init.chrRam.take 8192) else []
  cart := cart
  mapper := m
  prgWin := Vector.replicate 4 0
  chrWin := Vector.replicate 8 0
  mirroring := if cart.mirroringBit then .vertical else .horizontal
  bus := []
  draws := 0

/-- `PowerOn` (R520) of a parsed cartridge: the construction, the mapper's power-on (R127, R521), and `PC` read
from the reset vector through the mapper. -/
def powerOn (cart : Cartridge) (m : Mapper) (init : Init) : State :=
  let (w, s) := readWord resetVector (mapperPowerOn m (constructed cart m init))
  { s with pc := w }

/-- `LoadCartridge(image)` (R97, R482, R520): the state of the session, or the fault "surfaced before CPU state
exists". -/
def loadCartridge (image : List Byte) (init : Init) : Except FaultRecord State :=
  match parseCartridge image with
  | .error r => .error (.malformedCartridge r)
  | .ok (cart, m) => .ok (powerOn cart m init)

end Sys2Proof.Machine
end

