-- ==== Sys2Proof/Machine/Session.lean ====
section
/-!
DEFINITION. What the environment does between steps (spec/20_memory.md R97, R100; spec/60_exceptions.md R471, R487,
R495; spec/21_memory_mappers.md R171; spec/70_reset_and_hazards.md R541). They land between two steps only
(R283). Log entries 12 and 13.
-/
namespace Sys2Proof.Machine

/-- `TriggerNmi()` (R471): repeated calls collapse into one pending NMI. -/
def triggerNmi (s : State) : State := { s with nmiPending := true }

/-- `ScanlineTick()` (R171): "no effect on other variants" (R97). -/
def scanlineTick (s : State) : State :=
  match s.mapper with
  | .mmc3 r => mmc3Tick r s
  | _ => s

/-- The countdown of a tick (R541): `if owed > 0: owed <- owed - 1`. -/
def countDown (s : State) : State := { s with owed := s.owed - 1 }

/-- `CpuTick()` (R541) of a running session that is not cancelled. -/
def tick (s : State) : State :=
  if s.owed = 0 then
    match step s with
    | .next t => countDown t
    | .fault _ => s
    | .refused _ => s
  else countDown s

/-- `SaveRam()` (R100): the bytes of PRG-RAM. -/
def saveRam (s : State) : List Byte := s.prgRam.toBytes s.prgRamLen

/-- `LoadRam(b)` (R100): byte `i` to index `i` for `i < min(len(b), len(PRG-RAM))`. -/
def loadRam (bs : List Byte) (s : State) : State :=
  { s with prgRam := s.prgRam.setBytes 0 (bs.take s.prgRamLen) }

/-- `Cancel()` (R495). -/
def cancel (s : State) : State := { s with cancelled := true }

/-- The actions of the environment between steps (R97). -/
inductive HostAction where
  | cpuTick
  | triggerNmi
  | scanlineTick
  | ppuRead (addr : Nat)
  | ppuWrite (addr : Nat) (v : Byte)
  | loadRam (bytes : List Byte)
  | cancel
  deriving DecidableEq, Repr

/-- An action on a running session that is not cancelled. -/
def HostAction.act : HostAction → State → State
  | .cpuTick, s => tick s
  | .triggerNmi, s => Machine.triggerNmi s
  | .scanlineTick, s => Machine.scanlineTick s
  | .ppuRead a, s => (Machine.ppuRead a s).2
  | .ppuWrite a v, s => Machine.ppuWrite a v s
  | .loadRam bs, s => Machine.loadRam bs s
  | .cancel, s => Machine.cancel s

/-- An action on any session. After `Cancel()` the "state no longer changes" (R97). In a faulted session "only
observation and `Cancel` remain" (R487). -/
def HostAction.perform (h : HostAction) (s : State) : State :=
  if s.cancelled then s
  else
    match s.status with
    | .running => h.act s
    | .faulted _ => if h = .cancel then Machine.cancel s else s

end Sys2Proof.Machine
end

