-- ==== Sys2Proof/Safety.lean ====
section
/-!
DEFINITION. What the claims speak of: the invariants of the block, when a session can take a step, the rows an
instruction rule lists, and the shape of an instruction's result.
-/
namespace Sys2Proof.Machine

/-! ### Invariants -/

/-- The numbers of units of a cartridge that was loaded: at least one of PRG-ROM and one of PRG-RAM (R98, R99,
R122, R125). -/
abbrev State.SizesOk (s : State) : Prop := 1 ≤ s.cart.prgUnits ∧ 1 ≤ s.cart.prgRamUnits

/-- An array in canonical form with its indexes below its length. -/
abbrev Memory.Fits (m : Memory) (n : Nat) : Prop := m.wf = true ∧ m.below n = true

/-- Every array is in canonical form and within its length (R79, R89, R125, R126, R98). -/
abbrev State.MemoryOk (s : State) : Prop :=
  s.ram.Fits 2048 ∧ s.vram.Fits 2048 ∧ s.prgRam.Fits s.prgRamLen ∧ s.chrRam.Fits 8192 ∧
    s.cart.prg.Fits s.prgLen ∧ s.cart.chr.Fits (8192 * s.cart.chrUnits)

/-- "every offset is a multiple of the window size and lies in [0, length)" (R123, R484). -/
abbrev State.WindowsOk (s : State) : Prop :=
  (∀ w : Fin 4, s.prgWin[w] % 0x2000 = 0 ∧ s.prgWin[w] < s.prgLen) ∧
    (∀ w : Fin 8, s.chrWin[w] % 0x400 = 0 ∧ s.chrWin[w] < s.chrLen)

/-- What every state of a session satisfies. -/
abbrev State.Inv (s : State) : Prop := s.SizesOk ∧ s.MemoryOk ∧ s.WindowsOk

/-- The number of a mapper variant (R121). -/
def Mapper.number : Mapper → Byte
  | .nrom => 0
  | .mmc1 _ => 1
  | .uxrom _ => 2
  | .cnrom _ => 3
  | .mmc3 _ => 4
  | .axrom _ => 7
  | .mmc2 _ => 9
  | .mmc4 _ => 10
  | .colorDreams _ => 11
  | .gxrom _ => 66
  | .camerica _ => 71
  | .un1rom _ => 94
  | .unromFixFirst _ => 180
  | .namco108 _ => 206

/-- The offset tables (and for MMC1 and AxROM the mirroring) are what the variant's recomputation gives for the
registers it holds: recomputing them changes nothing (R120: "derived bank-offset tables recomputed on register
write"). -/
abbrev State.Coherent (s : State) : Prop := mapperPowerOn s.mapper s = s

/-! ### When a session takes a step -/

/-- A running session that is not cancelled. -/
abbrev State.Active (s : State) : Prop := s.status = .running ∧ s.cancelled = false

/-- No interrupt is taken at the next step (R473, R474). -/
abbrev State.NoInterrupt (s : State) : Prop := s.nmiPending = false ∧ (s.irqPending = false ∨ s.flags.i = true)

end Sys2Proof.Machine

namespace Sys2Proof
open Sys2Proof.Machine

/-! ### The rows of an instruction rule -/

/-- The opcodes and modes of an operation, as its own rule lists them (R300 to R311, R335 to R353, R381 to R405,
R431 to R452). -/
def Operation.rows : Operation → List (Byte × Mode)
  | .brk => [(0x00, .imp)]
  | .ora => [(0x09, .imm), (0x05, .zp), (0x15, .zpx), (0x0D, .abs), (0x1D, .absx), (0x19, .absy), (0x01, .indx),
      (0x11, .indy)]
  | .asl => [(0x0A, .acc), (0x06, .zp), (0x16, .zpx), (0x0E, .abs), (0x1E, .absx)]
  | .php => [(0x08, .imp)]
  | .bpl => [(0x10, .rel)]
  | .clc => [(0x18, .imp)]
  | .jsr => [(0x20, .abs)]
  | .and => [(0x29, .imm), (0x25, .zp), (0x35, .zpx), (0x2D, .abs), (0x3D, .absx), (0x39, .absy), (0x21, .indx),
      (0x31, .indy)]
  | .bit => [(0x24, .zp), (0x2C, .abs)]
  | .rol => [(0x2A, .acc), (0x26, .zp), (0x36, .zpx), (0x2E, .abs), (0x3E, .absx)]
  | .plp => [(0x28, .imp)]
  | .bmi => [(0x30, .rel)]
  | .sec => [(0x38, .imp)]
  | .rti => [(0x40, .imp)]
  | .eor => [(0x49, .imm), (0x45, .zp), (0x55, .zpx), (0x4D, .abs), (0x5D, .absx), (0x59, .absy), (0x41, .indx),
      (0x51, .indy)]
  | .lsr => [(0x4A, .acc), (0x46, .zp), (0x56, .zpx), (0x4E, .abs), (0x5E, .absx)]
  | .pha => [(0x48, .imp)]
  | .jmp => [(0x4C, .abs), (0x6C, .ind)]
  | .bvc => [(0x50, .rel)]
  | .cli => [(0x58, .imp)]
  | .rts => [(0x60, .imp)]
  | .adc => [(0x69, .imm), (0x65, .zp), (0x75, .zpx), (0x6D, .abs), (0x7D, .absx), (0x79, .absy), (0x61, .indx),
      (0x71, .indy)]
  | .ror => [(0x6A, .acc), (0x66, .zp), (0x76, .zpx), (0x6E, .abs), (0x7E, .absx)]
  | .pla => [(0x68, .imp)]
  | .bvs => [(0x70, .rel)]
  | .sei => [(0x78, .imp)]
  | .sta => [(0x85, .zp), (0x95, .zpx), (0x8D, .abs), (0x9D, .absx), (0x99, .absy), (0x81, .indx), (0x91, .indy)]
  | .sty => [(0x84, .zp), (0x94, .zpx), (0x8C, .abs)]
  | .stx => [(0x86, .zp), (0x96, .zpy), (0x8E, .abs)]
  | .dey => [(0x88, .imp)]
  | .txa => [(0x8A, .imp)]
  | .bcc => [(0x90, .rel)]
  | .tya => [(0x98, .imp)]
  | .txs => [(0x9A, .imp)]
  | .ldy => [(0xA0, .imm), (0xA4, .zp), (0xB4, .zpx), (0xAC, .abs), (0xBC, .absx)]
  | .lda => [(0xA9, .imm), (0xA5, .zp), (0xB5, .zpx), (0xAD, .abs), (0xBD, .absx), (0xB9, .absy), (0xA1, .indx),
      (0xB1, .indy)]
  | .ldx => [(0xA2, .imm), (0xA6, .zp), (0xB6, .zpy), (0xAE, .abs), (0xBE, .absy)]
  | .tay => [(0xA8, .imp)]
  | .tax => [(0xAA, .imp)]
  | .bcs => [(0xB0, .rel)]
  | .clv => [(0xB8, .imp)]
  | .tsx => [(0xBA, .imp)]
  | .cpy => [(0xC0, .imm), (0xC4, .zp), (0xCC, .abs)]
  | .cmp => [(0xC9, .imm), (0xC5, .zp), (0xD5, .zpx), (0xCD, .abs), (0xDD, .absx), (0xD9, .absy), (0xC1, .indx),
      (0xD1, .indy)]
  | .dec => [(0xC6, .zp), (0xD6, .zpx), (0xCE, .abs), (0xDE, .absx)]
  | .iny => [(0xC8, .imp)]
  | .dex => [(0xCA, .imp)]
  | .bne => [(0xD0, .rel)]
  | .cld => [(0xD8, .imp)]
  | .cpx => [(0xE0, .imm), (0xE4, .zp), (0xEC, .abs)]
  | .sbc => [(0xE9, .imm), (0xE5, .zp), (0xF5, .zpx), (0xED, .abs), (0xFD, .absx), (0xF9, .absy), (0xE1, .indx),
      (0xF1, .indy), (0xEB, .imm)]
  | .inc => [(0xE6, .zp), (0xF6, .zpx), (0xEE, .abs), (0xFE, .absx)]
  | .inx => [(0xE8, .imp)]
  | .nop => [(0xEA, .imp), (0x1A, .imp), (0x3A, .imp), (0x5A, .imp), (0x7A, .imp), (0xDA, .imp), (0xFA, .imp),
      (0x80, .imm), (0x82, .imm), (0x89, .imm), (0xC2, .imm), (0xE2, .imm), (0x04, .zp), (0x44, .zp),
      (0x64, .zp), (0x14, .zpx), (0x34, .zpx), (0x54, .zpx), (0x74, .zpx), (0xD4, .zpx), (0xF4, .zpx),
      (0x0C, .abs), (0x1C, .absx), (0x3C, .absx), (0x5C, .absx), (0x7C, .absx), (0xDC, .absx), (0xFC, .absx)]
  | .beq => [(0xF0, .rel)]
  | .sed => [(0xF8, .imp)]
  | .slo => [(0x07, .zp), (0x17, .zpx), (0x0F, .abs), (0x1F, .absx), (0x1B, .absy), (0x03, .indx), (0x13, .indy)]
  | .anc => [(0x0B, .imm), (0x2B, .imm)]
  | .rla => [(0x27, .zp), (0x37, .zpx), (0x2F, .abs), (0x3F, .absx), (0x3B, .absy), (0x23, .indx), (0x33, .indy)]
  | .sre => [(0x47, .zp), (0x57, .zpx), (0x4F, .abs), (0x5F, .absx), (0x5B, .absy), (0x43, .indx), (0x53, .indy)]
  | .alr => [(0x4B, .imm)]
  | .rra => [(0x67, .zp), (0x77, .zpx), (0x6F, .abs), (0x7F, .absx), (0x7B, .absy), (0x63, .indx), (0x73, .indy)]
  | .arr => [(0x6B, .imm)]
  | .sax => [(0x87, .zp), (0x97, .zpy), (0x8F, .abs), (0x83, .indx)]
  | .lax => [(0xA7, .zp), (0xB7, .zpy), (0xAF, .abs), (0xBF, .absy), (0xA3, .indx), (0xB3, .indy)]
  | .dcp => [(0xC7, .zp), (0xD7, .zpx), (0xCF, .abs), (0xDF, .absx), (0xDB, .absy), (0xC3, .indx), (0xD3, .indy)]
  | .axs => [(0xCB, .imm)]
  | .isc => [(0xE7, .zp), (0xF7, .zpx), (0xEF, .abs), (0xFF, .absx), (0xFB, .absy), (0xE3, .indx), (0xF3, .indy)]
  | .jam => [(0x02, .imp), (0x12, .imp), (0x22, .imp), (0x32, .imp), (0x42, .imp), (0x52, .imp), (0x62, .imp),
      (0x72, .imp), (0x92, .imp), (0xB2, .imp), (0xD2, .imp), (0xF2, .imp)]
  | .xaa => [(0x8B, .imm)]
  | .sha => [(0x93, .indy), (0x9F, .absy)]
  | .tas => [(0x9B, .absy)]
  | .shy => [(0x9C, .absx)]
  | .shx => [(0x9E, .absy)]
  | .lxa => [(0xAB, .imm)]
  | .las => [(0xBB, .absy)]

/-- `i` is one of the rows that the rule of `op` lists. -/
abbrev Instr.Is (i : Instr) (op : Operation) : Prop := (i.opcode, i.operand.mode) ∈ op.rows

/-- `i` is a row of one of the rules. -/
abbrev Instr.IsOneOf (i : Instr) (ops : List Operation) : Prop := ∃ op ∈ ops, i.Is op

/-! ### The operand and the result of an instruction -/

/-- The base cost of a read by mode (R543). -/
def Mode.readCost : Mode → Nat
  | .imm => 2
  | .zp => 3
  | .zpx | .zpy | .abs | .absx | .absy => 4
  | .indx => 6
  | .indy => 5
  | .imp | .acc | .rel | .ind => 0

/-- The base cost of a store by mode (R543). -/
def Mode.storeCost : Mode → Nat
  | .zp => 3
  | .zpx | .zpy | .abs => 4
  | .absx | .absy => 5
  | .indx | .indy => 6
  | .imp | .acc | .imm | .rel | .ind => 0

/-- The base cost of a read-modify-write by mode, and of its accumulator form (R543). -/
def Mode.rmwCost : Mode → Nat
  | .acc => 2
  | .zp => 5
  | .zpx | .zpy | .abs => 6
  | .absx | .absy => 7
  | .indx | .indy => 8
  | .imp | .imm | .rel | .ind => 0

/-- The base cost of an operation in a mode (R238, R543); an unsupported one has none. -/
def Operation.baseCost (op : Operation) (m : Mode) : Option Nat :=
  match op with
  | .adc | .and | .cmp | .eor | .lda | .ora | .sbc | .ldx | .ldy | .bit | .cpx | .cpy | .lax => some m.readCost
  | .anc | .alr | .arr | .axs => some 2
  | .sta | .stx | .sty | .sax => some m.storeCost
  | .asl | .lsr | .rol | .ror | .inc | .dec | .dcp | .isc | .slo | .rla | .sre | .rra => some m.rmwCost
  | .nop => if m = .imp then some 2 else some m.readCost
  | .tax | .tay | .txa | .tya | .tsx | .txs | .inx | .iny | .dex | .dey => some 2
  | .clc | .sec | .cli | .sei | .cld | .sed | .clv => some 2
  | .bpl | .bmi | .bvc | .bvs | .bcc | .bcs | .bne | .beq => some 2
  | .pha | .php => some 3
  | .pla | .plp => some 4
  | .jsr | .rts | .rti => some 6
  | .brk => some 7
  | .jmp => if m = .abs then some 3 else some 5
  | .jam | .xaa | .lxa | .sha | .shy | .shx | .tas | .las => none

/-- Where the operand of `i` is, when `i` runs in `s`: the resolver's answer (R263). -/
def Instr.place (i : Instr) (s : State) : Place := (resolve i.operand s).place

/-- The byte that `OperandRead` of `i` returns, when `i` runs in `s` (R265). -/
def Instr.operandByte (i : Instr) (s : State) : Byte := (operandRead (i.place s) (resolve i.operand s).state).1

/-- The pointer reads of the resolver, newest first (R278, R279, R281). -/
def Operand.pointerReads (o : Operand) (s : State) : List BusAccess :=
  match o with
  | .indx z =>
    [.read (z + s.x + 1).zext (s.peek (z + s.x + 1).zext), .read (z + s.x).zext (s.peek (z + s.x).zext)]
  | .indy z => [.read (z + 1).zext (s.peek (z + 1).zext), .read z.zext (s.peek z.zext)]
  | .ind w =>
    let h := w.hi.pair (w.lo + 1)
    let s' := recordRead w (s.peek w) s
    [.read h (s'.peek h), .read w (s.peek w)]
  | .imp | .acc | .imm _ | .zp _ | .zpx _ | .zpy _ | .abs _ | .absx _ | .absy _ | .rel _ => []

end Sys2Proof

namespace Sys2Proof.Machine

/-- `t` is `u` with what every instruction `i` run in `s` adds: its cost (R264), the scratch (R46), and some bus
accesses with their oracle draws. Everything else of `t` is as in `u`. -/
def EndsAs (i : Instr) (s t u : State) : Prop :=
  t = { u with
    owed := u.owed + cost (desc i.opcode) (resolve i.operand s).crossed
    scratch := some ⟨i.opcode, desc i.opcode, (i.place s).ea, (resolve i.operand s).crossed⟩
    bus := t.bus
    draws := t.draws }

/-- The flags with `Z` and `N` of a byte. -/
def Flags.zn (f : Flags) (v : Byte) : Flags := { f with z := decide (v = 0), n := decide (128 ≤ v.toNat) }

/-- The status byte (R44): C, Z, I, D in bits 0 to 3, bit 4 as given, bit 5 set, V and N in bits 6 and 7. -/
def Flags.statusByte (f : Flags) (b4 : Bool) : Byte :=
  BitVec.ofBool f.n ++ BitVec.ofBool f.v ++ BitVec.ofBool true ++ BitVec.ofBool b4 ++ BitVec.ofBool f.d ++
    BitVec.ofBool f.i ++ BitVec.ofBool f.z ++ BitVec.ofBool f.c

/-- Two addresses below 0x8000 name one byte: they are equal, or both are below 0x2000 and equal modulo 0x800
(R79). -/
def sameByte (a b : Word) : Prop := a = b ∨ (a.toNat < 0x2000 ∧ b.toNat < 0x2000 ∧ a.toNat % 0x800 = b.toNat % 0x800)

/-- Every byte that a CPU read finds outside the byte stored at `a` is in `t` what it is in `s`. An oracle's
answers are not bytes of memory; a write at 0x8000 or above is a mapper register write, which stores no byte and
may switch the banks read there (R124), so after one only the addresses below 0x8000 are compared. -/
def SameBytesBut (a : Word) (s t : State) : Prop :=
  ∀ b : Word, oracleAddr b = false → ¬ sameByte a b → (0x8000 ≤ a.toNat → b.toNat < 0x8000) → t.peek b = s.peek b

/-- Every byte that a CPU read finds is in `t` what it is in `s`. -/
def SameBytes (s t : State) : Prop := ∀ b : Word, oracleAddr b = false → t.peek b = s.peek b

/-- Whether a bus access is an oracle draw (R80, R81, R91). -/
def BusAccess.isDraw : BusAccess → Bool
  | .read a _ => oracleAddr a
  | .ppuRead a _ => 0x3F00 ≤ a.toNat
  | .write _ _ => false
  | .ppuWrite _ _ => false

end Sys2Proof.Machine
end

