-- ==== Sys2Proof/Certificates/Slice0/Obligations.lean ====
section
/-!
DEFINITION. The statements for the provers. `Instr.Is op` names the rows that the instruction rule of `op` lists;
`EndsAs i s t u` says that `t` is `u` but for the cost, the scratch and the bus record of an instruction; `SameBytesBut a`
and `SameBytes` are the frames of memory (Sys2Proof/Safety.lean). Each docstring says what is claimed, and
OBLIGATIONS.json the rules it formalises.
-/
open Sys2Proof Sys2Proof.Machine

/-- For every instruction i (all 256 constructors, every operand value) and every list of bytes after it, decode of
encode i ++ rest is i and rest. Every term of Instr is well-formed, so no form is shut out. [R230, R231, R232,
spec/30_encoding.md] -/
def Obligations.DecodeOfEncode : Prop :=
  ∀ (i : Instr) (rest : List Byte), decode (encode i ++ rest) = .ok (i, rest)

/-- Whenever decode of a list of bytes answers an instruction i and a rest, the list is encode i followed by the
rest: no bit of the bytes is dropped, and two different byte strings never decode to one instruction. [R230,
R231, R232, R234] -/
def Obligations.EncodeOfDecode : Prop :=
  ∀ (bytes rest : List Byte) (i : Instr), decode bytes = .ok (i, rest) → encode i ++ rest = bytes

/-- For every opcode byte op and every list of bytes after it: let n be the number of operand bytes of op's mode (0
for imp and acc, 2 for abs, absx, absy and ind, 1 for every other mode). If at least n bytes follow, decode
answers an instruction whose opcode is op and whose operand has op's mode, and leaves the bytes after the first
n; if fewer follow, decode refuses with the number of bytes needed. [R230] -/
def Obligations.EveryOpcodeByteDecodes : Prop :=
  ∀ (op : Byte) (bytes : List Byte),
    let n := match (desc op).mode with
      | .imp | .acc => 0
      | .abs | .absx | .absy | .ind => 2
      | .imm | .zp | .zpx | .zpy | .indx | .indy | .rel => 1
    (n ≤ bytes.length →
      ∃ i, decode (op :: bytes) = .ok (i, bytes.drop n) ∧ i.opcode = op ∧ i.operand.mode = (desc op).mode) ∧
    (bytes.length < n → decode (op :: bytes) = .error (.truncated (n + 1)))

/-- A word of each family, written out byte by byte from the opcode map and the formats, decodes to the instruction
it stands for: LDA #$00, STA $0200, LDX $10,Y, ADC ($20,X), SBC ($40),Y, ASL A, INC $1234,X, BEQ with offset 6,
JMP ($30FF), JSR $9000, BRK, PHP, the unofficial SLO $0210,Y, SBC 0xEB and NOP $00F0,X, and the unsupported JAM
0x02 and SHA $1234,Y. [R231, R232, R237, R238, R240] -/
def Obligations.KnownWordsDecode : Prop :=
  decode [0xA9, 0x00] = .ok (.ldaImm 0x00, []) ∧
  decode [0x8D, 0x00, 0x02] = .ok (.staAbs 0x0200, []) ∧
  decode [0xB6, 0x10] = .ok (.ldxZpy 0x10, []) ∧
  decode [0x61, 0x20] = .ok (.adcIndx 0x20, []) ∧
  decode [0xF1, 0x40] = .ok (.sbcIndy 0x40, []) ∧
  decode [0x0A] = .ok (.aslAcc, []) ∧
  decode [0xFE, 0x34, 0x12] = .ok (.incAbsx 0x1234, []) ∧
  decode [0xF0, 0x06] = .ok (.beq 0x06, []) ∧
  decode [0x6C, 0xFF, 0x30] = .ok (.jmpInd 0x30FF, []) ∧
  decode [0x20, 0x00, 0x90] = .ok (.jsr 0x9000, []) ∧
  decode [0x00, 0xEA] = .ok (.brk, [0xEA]) ∧
  decode [0x08] = .ok (.php, []) ∧
  decode [0x1B, 0x10, 0x02] = .ok (.sloAbsy 0x0210, []) ∧
  decode [0xEB, 0xF0] = .ok (.sbcImmEB 0xF0, []) ∧
  decode [0x1C, 0xF0, 0x00] = .ok (.nopAbsx1C 0x00F0, []) ∧
  decode [0x02] = .ok (.jam02, []) ∧
  decode [0x9F, 0x34, 0x12] = .ok (.shaAbsy 0x1234, [])

/-- Every one of the 256 constructors has an opcode and a mode that the rule of its operation (R300 to R452) lists,
so that the statements about the rows of a rule leave no form out, and its row's base cost is that of the cost
summary by operation and mode (none for the unsupported rows); of the 256 opcode bytes 151 are official, 85
unofficial and 20 unsupported. [R234, R238, R543, spec/41_load_store_transfer.md, spec/42_alu.md,
spec/43_control_stack_flags.md, spec/44_unofficial.md] -/
def Obligations.TheOpcodeTable : Prop :=
  (∀ i : Instr, i.Is i.operation ∧ (desc i.opcode).cycles = i.operation.baseCost i.operand.mode) ∧
  ((List.range 256).countP fun n => (desc (BitVec.ofNat 8 n)).cls == .official) = 151 ∧
  ((List.range 256).countP fun n => (desc (BitVec.ofNat 8 n)).cls == .unofficial) = 85 ∧
  ((List.range 256).countP fun n => (desc (BitVec.ofNat 8 n)).cls == .unsupported) = 20

/-- For every instruction: its row's page-penalty flag is set exactly when it is ADC, AND, CMP, EOR, LDA, ORA or SBC
in mode absx, absy or indy, LDX absy, LDY absx, LAX absy or indy, or NOP absx; its read-modify-write flag is set
exactly when it is ASL, LSR, ROL, ROR, INC or DEC with a memory operand (not acc), or DCP, ISC, SLO, RLA, SRE or
RRA. (That a set penalty flag costs one cycle is CompletionAndCost; that a row with the second flag reads once
and writes twice is ReadModifyWriteOrder.) [R235, R236] -/
def Obligations.PenaltyAndRmwFlagsOfTheTable : Prop :=
  ∀ i : Instr,
    ((desc i.opcode).pagePenalty = true ↔
      (i.operation ∈ [.adc, .and, .cmp, .eor, .lda, .ora, .sbc] ∧ i.operand.mode ∈ [.absx, .absy, .indy]) ∨
      (i.operation = .ldx ∧ i.operand.mode = .absy) ∨ (i.operation = .ldy ∧ i.operand.mode = .absx) ∨
      (i.operation = .lax ∧ i.operand.mode ∈ [.absy, .indy]) ∨ (i.operation = .nop ∧ i.operand.mode = .absx)) ∧
    ((desc i.opcode).rmw = true ↔
      (i.operation ∈ [.asl, .lsr, .rol, .ror, .inc, .dec] ∧ i.operand.mode ≠ .acc) ∨
      i.operation ∈ [.dcp, .isc, .slo, .rla, .sre, .rra])

/-- In a running session that is not cancelled, with no NMI pending and no unmasked IRQ pending: if the three bytes
that reads of PC, PC+1 and PC+2 find decode to i, the step is exec of i at the state in which PC is past the
instruction and the fetch's reads are on the bus record: the opcode byte and, for the modes that read them, the
operand bytes; an immediate byte or a branch offset is skipped and left to the operation's own read; of an
unsupported row only the opcode byte is consumed. [R260, R261, R263, R272, R280, R282] -/
def Obligations.StepRunsTheDecodedInstruction : Prop :=
  ∀ (s : State) (i : Instr) (b0 b1 b2 : Byte) (rest : List Byte), s.Active → s.NoInterrupt →
    b0 = s.peek s.pc →
    b1 = (recordRead s.pc b0 s).peek (s.pc + 1) →
    b2 = (recordRead (s.pc + 1) b1 (recordRead s.pc b0 s)).peek (s.pc + 2) →
    decode [b0, b1, b2] = .ok (i, rest) →
    let reads : List BusAccess :=
      if i.cls = .unsupported then [.read s.pc b0]
      else match i.operand.mode with
        | .imp | .acc | .imm | .rel => [.read s.pc b0]
        | .zp | .zpx | .zpy | .indx | .indy => [.read (s.pc + 1) b1, .read s.pc b0]
        | .abs | .absx | .absy | .ind => [.read (s.pc + 2) b2, .read (s.pc + 1) b1, .read s.pc b0]
    let consumed : Word :=
      if i.cls = .unsupported then 1
      else match i.operand.mode with
        | .imp | .acc => 1
        | .imm | .rel | .zp | .zpx | .zpy | .indx | .indy => 2
        | .abs | .absx | .absy | .ind => 3
    step s = exec i
      { s with
        pc := s.pc + consumed
        bus := reads ++ s.bus
        draws := s.draws + reads.countP BusAccess.isDraw }

/-- In a running session that is not cancelled: with an NMI pending the step is the NMI entry, whatever else is
pending; an IRQ entry is taken exactly when no NMI is pending, an IRQ is pending and I = 0; otherwise the step
runs an instruction, and one that cannot change the latches leaves a masked IRQ pending. An entry reads no
opcode. [R473] -/
def Obligations.InterruptsComeBeforeTheFetch : Prop :=
  ∀ s : State, s.Active →
    (s.nmiPending = true → step s = .next (interrupt .nmi s)) ∧
    (s.nmiPending = false → s.irqPending = true → s.flags.i = false → step s = .next (interrupt .irq s)) ∧
    (s.nmiPending = false → (s.irqPending = false ∨ s.flags.i = true) →
      ∃ i : Instr, step s = exec i (afterFetch (desc i.opcode) s) ∧ i.opcode = s.peek s.pc ∧
        (afterFetch (desc i.opcode) s).irqPending = s.irqPending ∧
        (afterFetch (desc i.opcode) s).flags = s.flags)

/-- In a running session that is not cancelled, when an entry of kind k is due (NMI pending; or IRQ pending and
unmasked with no NMI): the step answers a next state in which PC is the word at the vector (0xFFFA for NMI,
0xFFFE for IRQ), SP is 3 lower, owed is 7 higher, the latch of k is clear and the other latch, A, X, Y, all
seven flags (I and D too), the status, the cartridge, the mapper and every other field are as before; page 1
holds PC's high byte, its low byte and the status byte with bit 4 = 0 and bit 5 = 1 at SP, SP-1 and SP-2 (each
modulo 256); every other byte reads as before; the bus saw the three writes and the two vector reads and nothing
else. [R476, R477] -/
def Obligations.InterruptEntry : Prop :=
  ∀ (k : Interrupt) (s : State), s.Active → s.MemoryOk →
    (match k with
      | .nmi => s.nmiPending = true
      | .irq => s.nmiPending = false ∧ s.irqPending = true ∧ s.flags.i = false) →
    let vector : Word := match k with
      | .nmi => 0xFFFA
      | .irq => 0xFFFE
    let p : Byte := s.flags.statusByte false
    ∃ t, step s = .next t ∧
      t = { s with
        pc := (s.peek (vector + 1)).pair (s.peek vector)
        sp := s.sp - 3
        owed := s.owed + 7
        nmiPending := match k with
          | .nmi => false
          | .irq => s.nmiPending
        irqPending := match k with
          | .nmi => s.irqPending
          | .irq => false
        ram := t.ram
        bus := [.read (vector + 1) (s.peek (vector + 1)), .read vector (s.peek vector),
          .write (stackAddr (s.sp - 2)) p, .write (stackAddr (s.sp - 1)) s.pc.lo, .write (stackAddr s.sp) s.pc.hi]
          ++ s.bus } ∧
      t.peek (stackAddr s.sp) = s.pc.hi ∧ t.peek (stackAddr (s.sp - 1)) = s.pc.lo ∧ t.peek (stackAddr (s.sp - 2)) = p ∧
      ∀ b : Word, oracleAddr b = false → ¬ sameByte (stackAddr s.sp) b → ¬ sameByte (stackAddr (s.sp - 1)) b →
        ¬ sameByte (stackAddr (s.sp - 2)) b → t.peek b = s.peek b

/-- In a session whose status is Faulted(e) the step answers the fault sessionFaulted e, and CpuTick, TriggerNmi,
ScanlineTick, PpuRead, PpuWrite and LoadRam leave the state unchanged (Cancel remains). In a cancelled session
no step runs (step is refused, or faults where the session had faulted) and no action of the environment changes
the state. Cancel changes nothing but the cancel flag. R487 names the step, CpuTick, TriggerNmi and
ScanlineTick; that PpuRead, PpuWrite and LoadRam leave a faulted session unchanged is the model's reading (log
entry 13, DEDUCED). The cancel flag and the refusal are the model's form of R495 (log entry 11, DESIGN CHOICE);
that a cancelled session no longer changes is R97. [R487, R495, R97, R471, notes/assumptions/11.md,
notes/assumptions/13.md] -/
def Obligations.StoppedSessionsStayStopped : Prop :=
  (∀ (s : State) (e : FaultRecord), s.status = .faulted e →
    step s = .fault (.sessionFaulted e) ∧
    (∀ h : HostAction, h ≠ .cancel → h.perform s = s) ∧
    HostAction.perform .cancel s = { s with cancelled := true }) ∧
  (∀ s : State, s.cancelled = true →
    (s.status = .running → step s = .refused .sessionCancelled) ∧ ∀ h : HostAction, h.perform s = s) ∧
  (∀ s : State, s.Active → HostAction.perform .cancel s = { s with cancelled := true })

/-- For every row of JAM (12 opcodes), XAA, LXA, SHA (2), SHY, SHX, TAS and LAS, run when its opcode byte has been
consumed: the answer is the next state in which PC is put back on the opcode byte and the status is Faulted with
that opcode and that address; no cost is added and no register, flag, latch or byte of memory changes.
(Constructors jam02 to jamF2, xaa, lxa, shaIndy, shaAbsy, shy, shx, tas, las.) The other unofficial rows are
covered by their own statements. [R430, R445, R446, R447, R448, R449, R450, R451, R452] -/
def Obligations.UnsupportedRowsFault : Prop :=
  ∀ (i : Instr) (s : State), i.IsOneOf [.jam, .xaa, .lxa, .sha, .shy, .shx, .tas, .las] →
    exec i s = .next
      { s with pc := s.pc - 1, status := .faulted (.unsupportedOpcode i.opcode (s.pc - 1)) }

/-- In a running session that is not cancelled and has no interrupt to take, when the byte at PC is one of the 20
opcodes 02 12 22 32 42 52 62 72 92 B2 D2 F2 8B AB 93 9F 9C 9E 9B BB: the step answers the state before it with
the status Faulted(UnsupportedOpcode, that byte, PC) (cause code 1), PC still at the opcode, and the opcode
fetch's one bus read (with its draw where it is an oracle read); the next step answers the fault sessionFaulted.
A MalformedCartridge record has cause code 2 and is raised by LoadCartridge only (CartridgeHeaderFaults). [R480,
R481] -/
def Obligations.UnsupportedStepIsPrecise : Prop :=
  ∀ s : State, s.Active → s.NoInterrupt →
    s.peek s.pc ∈ ([0x02, 0x12, 0x22, 0x32, 0x42, 0x52, 0x62, 0x72, 0x92, 0xB2, 0xD2, 0xF2,
      0x8B, 0xAB, 0x93, 0x9F, 0x9C, 0x9E, 0x9B, 0xBB] : List Byte) →
    let e : FaultRecord := .unsupportedOpcode (s.peek s.pc) s.pc
    ∃ t, step s = .next t ∧ step t = .fault (.sessionFaulted e) ∧ e.code = 1 ∧
      (∀ r, (FaultRecord.malformedCartridge r).code = 2) ∧
      t = { s with
        status := .faulted e
        bus := .read s.pc (s.peek s.pc) :: s.bus
        draws := s.draws + (if oracleAddr s.pc then 1 else 0) }

/-- For every supported instruction and every state, exec answers a next state (no bus access and no operation
fails), in which the session's status, the cancel flag and the NMI latch are as before, the scratch holds the
opcode, its descriptor, the operand's location and whether a page was crossed, and owed has grown by the row's
base cost, plus 1 when the page-penalty flag is set and a page was crossed; for a branch by up to 2 more
(BranchesFollowTheirFlag says which), for every other operation by nothing more. [R264] -/
def Obligations.CompletionAndCost : Prop :=
  ∀ (i : Instr) (s : State), i.cls ≠ .unsupported →
    let crossed := (resolve i.operand s).crossed
    ∃ (t : State) (c extra : Nat), exec i s = .next t ∧
      t.status = s.status ∧ t.cancelled = s.cancelled ∧ t.nmiPending = s.nmiPending ∧
      t.scratch = some ⟨i.opcode, desc i.opcode, (i.place s).ea, crossed⟩ ∧
      (desc i.opcode).cycles = some c ∧
      t.owed = s.owed + c + (if (desc i.opcode).pagePenalty = true ∧ crossed = true then 1 else 0) + extra ∧
      extra ≤ 2 ∧ (i.operand.mode ≠ .rel → extra = 0)

/-- For every row of LDA (8 modes), LDX (5), LDY (5) and LAX (6) and every state, exec answers a next state in which
the register (for LAX both A and X) holds the operand byte m, Z is (m = 0), N is m[7], and everything else (the
other registers and flags, PC, every byte of every memory, the mapper, the latches) is as before, but for the
cost, the scratch and the operand's bus reads. [R300, R301, R302, R432] -/
def Obligations.LoadsWriteTheirRegister : Prop :=
  ∀ (i : Instr) (s : State),
    let m := i.operandByte s
    (i.Is .lda → ∃ t, exec i s = .next t ∧ EndsAs i s t { s with a := m, flags := s.flags.zn m }) ∧
    (i.Is .ldx → ∃ t, exec i s = .next t ∧ EndsAs i s t { s with x := m, flags := s.flags.zn m }) ∧
    (i.Is .ldy → ∃ t, exec i s = .next t ∧ EndsAs i s t { s with y := m, flags := s.flags.zn m }) ∧
    (i.Is .lax → ∃ t, exec i s = .next t ∧ EndsAs i s t { s with a := m, x := m, flags := s.flags.zn m })

/-- For every row of STA (7 modes), STX (3), STY (3) and SAX (4) and every state whose arrays are in canonical form:
the operand is in memory at the address a that the resolver gives for the state before the instruction; exec
answers a next state that is one bus write of the register (for SAX of A and X) at a, with no register and no
flag changed; the write is the last bus access, after the pointer reads; every byte outside the stored one (for
RAM, its mirrors) reads as before, and where a is in RAM or PRG-RAM the stored byte reads back. A write at
0x8000 or above is a mapper register write. [R303, R304, R305, R433] -/
def Obligations.StoresWriteOneByte : Prop :=
  ∀ (i : Instr) (s : State) (v : Byte), s.MemoryOk →
    ((i.Is .sta ∧ v = s.a) ∨ (i.Is .stx ∧ v = s.x) ∨ (i.Is .sty ∧ v = s.y) ∨ (i.Is .sax ∧ v = s.a &&& s.x)) →
    ∃ (a : Word) (t : State), i.place s = .mem a ∧ exec i s = .next t ∧
      EndsAs i s t (memWrite a v s) ∧
      t.bus = .write a v :: (i.operand.pointerReads s ++ s.bus) ∧
      SameBytesBut a s t ∧
      (a.toNat < 0x2000 ∨ (0x6000 ≤ a.toNat ∧ a.toNat < 0x8000) → ∀ b, sameByte a b → t.peek b = v)

/-- For every state, exec of TAX, TAY, TXA, TYA, TSX, INX, INY, DEX, DEY and TXS answers a next state in which the
target register holds the source register, or itself plus or minus 1 modulo 256, Z and N follow the byte written
(for TXS no flag changes), and everything else (C and V too) is as before but for the cost and the scratch.
[R306, R307, R308, R309, R310, R311, R346, R347, R348, R349] -/
def Obligations.RegisterInstructions : Prop :=
  ∀ (i : Instr) (s : State),
    (∀ v, ((i.Is .txa ∧ v = s.x) ∨ (i.Is .tya ∧ v = s.y)) →
      ∃ t, exec i s = .next t ∧ EndsAs i s t { s with a := v, flags := s.flags.zn v } ∧ t.bus = s.bus) ∧
    (∀ v, ((i.Is .tax ∧ v = s.a) ∨ (i.Is .tsx ∧ v = s.sp) ∨ (i.Is .inx ∧ v = s.x + 1) ∨ (i.Is .dex ∧ v = s.x - 1)) →
      ∃ t, exec i s = .next t ∧ EndsAs i s t { s with x := v, flags := s.flags.zn v } ∧ t.bus = s.bus) ∧
    (∀ v, ((i.Is .tay ∧ v = s.a) ∨ (i.Is .iny ∧ v = s.y + 1) ∨ (i.Is .dey ∧ v = s.y - 1)) →
      ∃ t, exec i s = .next t ∧ EndsAs i s t { s with y := v, flags := s.flags.zn v } ∧ t.bus = s.bus) ∧
    (i.Is .txs → ∃ t, exec i s = .next t ∧ EndsAs i s t { s with sp := s.x } ∧ t.bus = s.bus)

/-- For every row of ADC (8 modes) and every state, with m the operand byte and c the carry before: A becomes (A + m
+ c) mod 256; C is 1 exactly when the unsigned sum exceeds 255; V is 1 exactly when the signed sum falls outside
-128 to 127; Z and N follow the result; everything else is as before but for the cost, the scratch and the
operand's bus reads. D is not read. [R330, R335] -/
def Obligations.AdcAddsWithCarry : Prop :=
  ∀ (i : Instr) (s : State), i.Is .adc →
    let m := i.operandByte s
    let c : Nat := if s.flags.c then 1 else 0
    let r : Byte := s.a + m + BitVec.ofNat 8 c
    let signed : Int := s.a.toInt + m.toInt + c
    ∃ t, exec i s = .next t ∧
      EndsAs i s t { s with
        a := r
        flags := { s.flags.zn r with
          c := decide (255 < s.a.toNat + m.toNat + c)
          v := decide (signed < -128 ∨ 127 < signed) } }

/-- For every row of SBC (8 official modes and the unofficial 0xEB) and every state, with m the operand byte and b =
1 - C the borrow before: A becomes (A - m - b) mod 256; C is 1 exactly when A - m - b is not negative; V is 1
exactly when the signed difference falls outside -128 to 127; Z and N follow the result; everything else is as
before but for the cost, the scratch and the operand's bus reads. [R336, R434] -/
def Obligations.SbcSubtractsWithBorrow : Prop :=
  ∀ (i : Instr) (s : State), i.Is .sbc →
    let m := i.operandByte s
    let b : Nat := if s.flags.c then 0 else 1
    let r : Byte := s.a - m - BitVec.ofNat 8 b
    let signed : Int := s.a.toInt - m.toInt - b
    ∃ t, exec i s = .next t ∧
      EndsAs i s t { s with
        a := r
        flags := { s.flags.zn r with
          c := decide (m.toNat + b ≤ s.a.toNat)
          v := decide (signed < -128 ∨ 127 < signed) } }

/-- For every state (every A and both carry-in values) and every byte m: SBC #m, its duplicate 0xEB with m, and ADC
#(~m) each answer a next state, the three have the same A and the same seven flags, and A is A - m - (1 - C)
modulo 256. [R331] -/
def Obligations.SbcIsAdcOfTheComplement : Prop :=
  ∀ (m : Byte) (s : State),
    ∃ t u w : State, exec (.sbcImm m) s = .next t ∧ exec (.sbcImmEB m) s = .next u ∧
      exec (.adcImm (~~~m)) s = .next w ∧
      t.a = w.a ∧ t.flags = w.flags ∧ u.a = w.a ∧ u.flags = w.flags ∧
      t.a = s.a - m - (if s.flags.c then 0 else 1) ∧
      (t.flags.c = true ↔ m.toNat + (if s.flags.c then 0 else 1) ≤ s.a.toNat)

/-- For every row of AND, ORA and EOR (8 modes each) and every state, A becomes the bitwise and, or, exclusive-or of
A and the operand byte m, and Z and N follow the result; for both rows of BIT no register is written, Z is ((A &
m) = 0), V is m[6], N is m[7]; everything else is as before but for the cost, the scratch and the operand's bus
reads. [R337, R338, R339, R340] -/
def Obligations.LogicAndBit : Prop :=
  ∀ (i : Instr) (s : State),
    let m := i.operandByte s
    (∀ r : Byte, ((i.Is .and ∧ r = s.a &&& m) ∨ (i.Is .ora ∧ r = s.a ||| m) ∨ (i.Is .eor ∧ r = s.a ^^^ m)) →
      ∃ t, exec i s = .next t ∧ EndsAs i s t { s with a := r, flags := s.flags.zn r }) ∧
    (i.Is .bit → ∃ t, exec i s = .next t ∧
      EndsAs i s t { s with flags := { s.flags with
        z := decide (s.a &&& m = 0)
        v := decide (64 ≤ m.toNat % 128)
        n := decide (128 ≤ m.toNat) } })

/-- For every row of CMP (8 modes), CPX (3) and CPY (3) and every state, with r the register and m the operand byte
read as unsigned numbers: C is (r >= m), Z is (r = m), N is bit 7 of the difference modulo 256; V and every
register are unchanged, and so is everything else but the cost, the scratch and the operand's bus reads. [R332,
R341, R342, R343] -/
def Obligations.ComparesSetCarryZeroNegative : Prop :=
  ∀ (i : Instr) (s : State) (r : Byte),
    ((i.Is .cmp ∧ r = s.a) ∨ (i.Is .cpx ∧ r = s.x) ∨ (i.Is .cpy ∧ r = s.y)) →
    let m := i.operandByte s
    ∃ t, exec i s = .next t ∧
      EndsAs i s t { s with flags := { s.flags with
        c := decide (m.toNat ≤ r.toNat)
        z := decide (r = m)
        n := decide (128 ≤ (r - m).toNat) } }

/-- For every row of INC and DEC (4 modes each) and every state whose arrays are in canonical form: the operand is
in memory at the address a that the resolver gives; with m the byte read there and r = m + 1 or m - 1 modulo
256, exec answers the state after a write of m and then a write of r at a, with Z and N from r and every other
flag (C and V too) and every register unchanged; the bus record grows by the pointer reads, one read of m, the
write of m and the write of r, all at a; every byte outside the stored one reads as before, and in RAM or
PRG-RAM r reads back. [R344, R345] -/
def Obligations.IncDecMemory : Prop :=
  ∀ (i : Instr) (s : State) (r : Byte), s.MemoryOk →
    let m := i.operandByte s
    ((i.Is .inc ∧ r = m + 1) ∨ (i.Is .dec ∧ r = m - 1)) →
    ∃ (a : Word) (t : State), i.place s = .mem a ∧ exec i s = .next t ∧
      EndsAs i s t { memWrite a r (memWrite a m s) with flags := s.flags.zn r } ∧
      t.bus = .write a r :: .write a m :: .read a m :: (i.operand.pointerReads s ++ s.bus) ∧
      SameBytesBut a s t ∧
      (a.toNat < 0x2000 ∨ (0x6000 ≤ a.toNat ∧ a.toNat < 0x8000) → ∀ b, sameByte a b → t.peek b = r)

/-- For every row of ASL, LSR, ROL and ROR (acc, zp, zpx, abs, absx) and every state whose arrays are in canonical
form: with m the operand byte and c the carry before, the result r is 2m, m/2, 2m + c, m/2 + 128c modulo 256; C
becomes m[7] for the left ones and m[0] for the right ones, Z and N follow r, no other flag changes. In the
accumulator form r goes to A and the bus is not touched; in a memory form the operand's address a is the
resolver's, the state is that after a write of m and a write of r at a, the bus record grows by the pointer
reads, one read of m and those two writes, no register changes, every byte outside the stored one reads as
before, and in RAM or PRG-RAM r reads back. [R350, R351, R352, R353] -/
def Obligations.ShiftsAndRotates : Prop :=
  ∀ (i : Instr) (s : State) (r : Byte) (out : Bool), s.MemoryOk →
    let m := i.operandByte s
    let c : Nat := if s.flags.c then 1 else 0
    ((i.Is .asl ∧ r = BitVec.ofNat 8 (2 * m.toNat) ∧ out = decide (128 ≤ m.toNat)) ∨
      (i.Is .lsr ∧ r = BitVec.ofNat 8 (m.toNat / 2) ∧ out = decide (m.toNat % 2 = 1)) ∨
      (i.Is .rol ∧ r = BitVec.ofNat 8 (2 * m.toNat + c) ∧ out = decide (128 ≤ m.toNat)) ∨
      (i.Is .ror ∧ r = BitVec.ofNat 8 (m.toNat / 2 + 128 * c) ∧ out = decide (m.toNat % 2 = 1))) →
    let f : Flags := { s.flags.zn r with c := out }
    (i.operand.mode = .acc → m = s.a ∧
      ∃ t, exec i s = .next t ∧ EndsAs i s t { s with a := r, flags := f } ∧ t.bus = s.bus) ∧
    (i.operand.mode ≠ .acc → ∃ (a : Word) (t : State), i.place s = .mem a ∧ exec i s = .next t ∧
      EndsAs i s t { memWrite a r (memWrite a m s) with flags := f } ∧
      t.bus = .write a r :: .write a m :: .read a m :: (i.operand.pointerReads s ++ s.bus) ∧
      SameBytesBut a s t ∧
      (a.toNat < 0x2000 ∨ (0x6000 ≤ a.toNat ∧ a.toNat < 0x8000) → ∀ b, sameByte a b → t.peek b = r))

/-- The rows with the read-modify-write flag are rows of ASL, LSR, ROL, ROR, INC, DEC (in memory), DCP, ISC, SLO,
RLA, SRE and RRA. For every one of them and every state, with m the operand byte, c the carry before and r the
result (m + 1 for INC and ISC, m - 1 for DEC and DCP, 2m for ASL and SLO, 2m + c for ROL and RLA, m/2 for LSR
and SRE, m/2 + 128c for ROR and RRA, modulo 256), exec answers a next state whose bus record is that before it,
then the resolver's pointer reads, then one read of m at the resolved address a, a write of m at a and a write
of r at a. STA, STX, STY and SAX write their register once, at a. OperandWrite without the flag writes once; to
the accumulator it has no bus access, writes A and sets Z and N. [R266] -/
def Obligations.ReadModifyWriteOrder : Prop :=
  (∀ i : Instr, (desc i.opcode).rmw = true →
    i.IsOneOf [.asl, .lsr, .rol, .ror, .inc, .dec, .dcp, .isc, .slo, .rla, .sre, .rra] ∧ i.operand.mode ≠ .acc) ∧
  (∀ (i : Instr) (s : State) (r : Byte), (desc i.opcode).rmw = true →
    let m := i.operandByte s
    let c : Nat := if s.flags.c then 1 else 0
    ((i.IsOneOf [.inc, .isc] ∧ r = m + 1) ∨
      (i.IsOneOf [.dec, .dcp] ∧ r = m - 1) ∨
      (i.IsOneOf [.asl, .slo] ∧ r = BitVec.ofNat 8 (2 * m.toNat)) ∨
      (i.IsOneOf [.rol, .rla] ∧ r = BitVec.ofNat 8 (2 * m.toNat + c)) ∨
      (i.IsOneOf [.lsr, .sre] ∧ r = BitVec.ofNat 8 (m.toNat / 2)) ∨
      (i.IsOneOf [.ror, .rra] ∧ r = BitVec.ofNat 8 (m.toNat / 2 + 128 * c))) →
    ∃ (a : Word) (t : State), i.place s = .mem a ∧ exec i s = .next t ∧
      t.bus = .write a r :: .write a m :: .read a m :: (i.operand.pointerReads s ++ s.bus)) ∧
  (∀ (i : Instr) (s : State) (v : Byte),
    ((i.Is .sta ∧ v = s.a) ∨ (i.Is .stx ∧ v = s.x) ∨ (i.Is .sty ∧ v = s.y) ∨ (i.Is .sax ∧ v = s.a &&& s.x)) →
    ∃ (a : Word) (t : State), i.place s = .mem a ∧ exec i s = .next t ∧
      t.bus = .write a v :: (i.operand.pointerReads s ++ s.bus)) ∧
  (∀ (a : Word) (old v : Byte) (s : State),
    operandWrite true (.mem a) old v s = memWrite a v (memWrite a old s) ∧
    operandWrite false (.mem a) old v s = memWrite a v s ∧
    ∀ rmw, operandWrite rmw .acc old v s = { s with a := v, flags := s.flags.zn v })

/-- For every row of LDA, LDX, LDY, LAX, ADC, SBC, AND, ORA, EOR, BIT, CMP, CPX, CPY, ANC, ALR, ARR, AXS and the
branches, and every state: exec answers a next state whose bus record is that before it, then the resolver's
pointer reads, then one read of the operand byte at the address the resolver gives (for an immediate or a branch
offset the address PC - 1 of that byte), and nothing else. [R265, R267, R272, R280] -/
def Obligations.ReadingInstructionsReadOnce : Prop :=
  ∀ (i : Instr) (s : State),
    i.IsOneOf [.lda, .ldx, .ldy, .lax, .adc, .sbc, .and, .ora, .eor, .bit, .cmp, .cpx, .cpy, .anc, .alr, .arr, .axs,
      .bpl, .bmi, .bvc, .bvs, .bcc, .bcs, .bne, .beq] →
    ∃ (a : Word) (t : State),
      (i.place s = .mem a ∨ (i.place s = .inline (i.operandByte s) a ∧ a = s.pc - 1)) ∧ exec i s = .next t ∧
      t.bus = .read a (i.operandByte s) :: (i.operand.pointerReads s ++ s.bus)

/-- For BPL (N = 0), BMI (N = 1), BVC (V = 0), BVS (V = 1), BCC (C = 0), BCS (C = 1), BNE (Z = 0) and BEQ (Z = 1)
and every state: the operand is the offset byte o at address a = PC - 1; where the condition holds PC becomes a
+ sext(o) + 1 modulo 65536 and owed grows by 1, and by 1 more where the high bytes of a and of the target
differ; otherwise PC stays past the instruction; no flag, no other register and no byte of memory changes, and o
is read once. [R380, R381, R382, R383, R384, R385, R386, R387, R388] -/
def Obligations.BranchesFollowTheirFlag : Prop :=
  ∀ (i : Instr) (s : State) (cond : Bool),
    ((i.Is .bpl ∧ cond = !s.flags.n) ∨ (i.Is .bmi ∧ cond = s.flags.n) ∨
      (i.Is .bvc ∧ cond = !s.flags.v) ∨ (i.Is .bvs ∧ cond = s.flags.v) ∨
      (i.Is .bcc ∧ cond = !s.flags.c) ∨ (i.Is .bcs ∧ cond = s.flags.c) ∨
      (i.Is .bne ∧ cond = !s.flags.z) ∨ (i.Is .beq ∧ cond = s.flags.z)) →
    let o := i.operandByte s
    let a := s.pc - 1
    let target : Word := BitVec.ofInt 16 (a.toNat + o.toInt + 1)
    ∃ t, exec i s = .next t ∧ i.place s = .inline o a ∧ t.bus = .read a o :: s.bus ∧
      EndsAs i s t
        (if cond then
          { s with pc := target, owed := s.owed + 1 + (if a.toNat / 256 = target.toNat / 256 then 0 else 1) }
        else s)

/-- For every word w and every state: exec of JMP w answers a next state with PC = w and nothing else changed but
the cost and the scratch; exec of JMP (w) reads the low byte at w and the high byte at the address with w's high
byte and w's low byte plus 1 modulo 256, and sets PC to the word of the two. [R281, R389] -/
def Obligations.JumpsSetThePc : Prop :=
  ∀ (w : Word) (s : State),
    (∃ t, exec (.jmpAbs w) s = .next t ∧ EndsAs (.jmpAbs w) s t { s with pc := w } ∧ t.bus = s.bus) ∧
    (let high : Word := (w &&& 0xFF00) ||| ((w + 1) &&& 0x00FF)
     let l := s.peek w
     let h := (recordRead w l s).peek high
     ∃ t, exec (.jmpInd w) s = .next t ∧ EndsAs (.jmpInd w) s t { s with pc := BitVec.ofNat 16 (256 * h.toNat + l.toNat) } ∧
       t.bus = .read high h :: .read w l :: s.bus)

/-- For every word w and every state whose arrays are in canonical form: exec of JSR w answers a next state with PC
= w, SP 2 lower modulo 256, the high byte of PC - 1 at 0x100 + SP and its low byte at 0x100 + (SP - 1 mod 256),
those two writes on the bus in that order, every other byte read as before, and no flag or other register
changed. [R390] -/
def Obligations.JsrPushesTheReturnAddress : Prop :=
  ∀ (w : Word) (s : State), s.MemoryOk →
    let ret := s.pc - 1
    ∃ t, exec (.jsr w) s = .next t ∧
      EndsAs (.jsr w) s t { s with pc := w, sp := s.sp - 2, ram := t.ram } ∧
      t.bus = .write (stackAddr (s.sp - 1)) ret.lo :: .write (stackAddr s.sp) ret.hi :: s.bus ∧
      t.peek (stackAddr s.sp) = ret.hi ∧ t.peek (stackAddr (s.sp - 1)) = ret.lo ∧
      ∀ b : Word, oracleAddr b = false → ¬ sameByte (stackAddr s.sp) b → ¬ sameByte (stackAddr (s.sp - 1)) b →
        t.peek b = s.peek b

/-- For every state: exec of RTS answers a next state with SP 2 higher and PC one more than the word pulled (low
byte first, from SP+1 and SP+2 modulo 256), no flag changed; exec of RTI answers one with SP 3 higher, the seven
flags from bits 0, 1, 2, 3, 4, 6, 7 of the byte at SP+1 (bit 5 ignored), PC the word at SP+2 and SP+3 with no 1
added; both latches and everything else are unchanged, and no byte is written. [R391, R392, R478] -/
def Obligations.RtsAndRtiPull : Prop :=
  ∀ s : State,
    let at' (k : Byte) : Byte := s.peek (stackAddr (s.sp + k))
    (∃ t, exec .rts s = .next t ∧
      EndsAs .rts s t { s with sp := s.sp + 2, pc := (at' 2).pair (at' 1) + 1 } ∧
      t.bus = .read (stackAddr (s.sp + 2)) (at' 2) :: .read (stackAddr (s.sp + 1)) (at' 1) :: s.bus) ∧
    (∃ t, exec .rti s = .next t ∧
      EndsAs .rti s t { s with
        sp := s.sp + 3
        pc := (at' 3).pair (at' 2)
        flags := {
          c := (at' 1).getLsbD 0, z := (at' 1).getLsbD 1, i := (at' 1).getLsbD 2, d := (at' 1).getLsbD 3,
          b := (at' 1).getLsbD 4, v := (at' 1).getLsbD 6, n := (at' 1).getLsbD 7 } } ∧
      t.bus = .read (stackAddr (s.sp + 3)) (at' 3) :: .read (stackAddr (s.sp + 2)) (at' 2) ::
        .read (stackAddr (s.sp + 1)) (at' 1) :: s.bus)

/-- From every state whose arrays are in canonical form: after JSR w, an RTS run with whatever PC, A, X, Y and flags
the subroutine left (and memory and SP as JSR left them) answers a next state whose PC is the address after the
JSR instruction and whose SP is the one before it, for every SP (the stack wraps in page 1). [R390, R391, R35] -/
def Obligations.JsrThenRtsReturns : Prop :=
  ∀ (w pc : Word) (a x y : Byte) (f : Flags) (s : State), s.MemoryOk →
    ∃ t u, exec (.jsr w) s = .next t ∧
      exec .rts { t with pc := pc, a := a, x := x, y := y, flags := f } = .next u ∧
      u.pc = s.pc ∧ u.sp = s.sp ∧ u.a = a ∧ u.x = x ∧ u.y = y ∧ u.flags = f

/-- From every state whose arrays are in canonical form: after the entry of an NMI or IRQ, an RTI (memory and SP as
the entry left them) answers PC, SP and all flags as before the entry, but that B is 0; after a BRK it answers
PC one past the padding byte, SP as before and the flags as before the BRK, but that B is 1 (so I is as before
the BRK whether or not BRK sets it). [R476, R478, R392, R393] -/
def Obligations.EntryThenRtiResumes : Prop :=
  ∀ (pc : Word) (a x y : Byte) (f : Flags) (s : State), s.MemoryOk →
    (∀ k : Interrupt, ∃ t, exec .rti { interrupt k s with pc := pc, a := a, x := x, y := y, flags := f } = .next t ∧
      t.pc = s.pc ∧ t.sp = s.sp ∧ t.flags = { s.flags with b := false }) ∧
    (∃ t u, exec .brk s = .next t ∧ exec .rti { t with pc := pc, a := a, x := x, y := y, flags := f } = .next u ∧
      u.pc = s.pc + 1 ∧ u.sp = s.sp ∧ u.flags = { s.flags with b := true })

/-- For every state whose arrays are in canonical form (PC past the opcode byte): exec of BRK answers a next state
in which the padding byte at PC was read once, PC + 1 and the status byte with bits 4 and 5 set are at SP, SP-1
and SP-2 of page 1, SP is 3 lower, PC is the word at 0xFFFE, the stored B and every flag but I are unchanged, I
is set if the parameter BRK_SETS_I is true and unchanged if it is false, the latches are unchanged, and every
other byte reads as before. It holds for both values of BRK_SETS_I. [R393] -/
def Obligations.BrkEntersThroughTheIrqVector : Prop :=
  ∀ s : State, s.MemoryOk →
    let ret := s.pc + 1
    let p : Byte := s.flags.statusByte true
    ∃ t, exec .brk s = .next t ∧
      EndsAs .brk s t { s with
        pc := (s.peek 0xFFFF).pair (s.peek 0xFFFE)
        sp := s.sp - 3
        flags := { s.flags with i := if Config.brkSetsI then true else s.flags.i }
        ram := t.ram } ∧
      t.bus = [.read 0xFFFF (s.peek 0xFFFF), .read 0xFFFE (s.peek 0xFFFE), .write (stackAddr (s.sp - 2)) p,
        .write (stackAddr (s.sp - 1)) ret.lo, .write (stackAddr s.sp) ret.hi, .read s.pc (s.peek s.pc)] ++ s.bus ∧
      t.peek (stackAddr s.sp) = ret.hi ∧ t.peek (stackAddr (s.sp - 1)) = ret.lo ∧ t.peek (stackAddr (s.sp - 2)) = p ∧
      ∀ b : Word, oracleAddr b = false → ¬ sameByte (stackAddr s.sp) b → ¬ sameByte (stackAddr (s.sp - 1)) b →
        ¬ sameByte (stackAddr (s.sp - 2)) b → t.peek b = s.peek b

/-- For every state whose arrays are in canonical form: PHA pushes A, PHP pushes the status byte with bits 4 and 5
set whatever B holds: SP is one lower modulo 256, the byte is at 0x100 + the old SP, every other byte reads as
before and no flag or other register changes. PLA makes A the byte at 0x100 + (SP + 1 mod 256), with Z and N
from it; PLP sets all seven flags from that byte (bit 5 ignored); SP is one higher, and nothing is written.
[R394, R395, R396, R397] -/
def Obligations.PushesAndPulls : Prop :=
  ∀ s : State, s.MemoryOk →
    (∀ (i : Instr) (v : Byte), ((i = .pha ∧ v = s.a) ∨ (i = .php ∧ v = s.flags.statusByte true)) →
      ∃ t, exec i s = .next t ∧ EndsAs i s t { s with sp := s.sp - 1, ram := t.ram } ∧
        t.bus = .write (stackAddr s.sp) v :: s.bus ∧ t.peek (stackAddr s.sp) = v ∧ SameBytesBut (stackAddr s.sp) s t) ∧
    (let v := s.peek (stackAddr (s.sp + 1))
     (∃ t, exec .pla s = .next t ∧ EndsAs .pla s t { s with sp := s.sp + 1, a := v, flags := s.flags.zn v } ∧
       t.bus = .read (stackAddr (s.sp + 1)) v :: s.bus) ∧
     (∃ t, exec .plp s = .next t ∧
       EndsAs .plp s t { s with sp := s.sp + 1, flags := {
         c := v.getLsbD 0, z := v.getLsbD 1, i := v.getLsbD 2, d := v.getLsbD 3, b := v.getLsbD 4, v := v.getLsbD 6,
         n := v.getLsbD 7 } } ∧
       t.bus = .read (stackAddr (s.sp + 1)) v :: s.bus))

/-- For all flags and both values of bit 4, Pack gives the byte whose bits 0, 1, 2, 3, 6, 7 are C, Z, I, D, V, N,
whose bit 4 is as given and whose bit 5 is 1; it is the byte the statements call statusByte. For every byte,
Unpack loads C, Z, I, D, B, V, N from bits 0, 1, 2, 3, 4, 6, 7; two bytes that differ in bit 5 only give the
same flags. From every state interrupt entry (NMI and IRQ) pushes Pack with bit 4 = 0 at SP - 2, BRK pushes it
with bit 4 = 1 at SP - 2, PHP with bit 4 = 1 at SP; PLP and RTI load the flags by Unpack from the byte at SP +
1. (All of what the five save and load is InterruptEntry, BrkEntersThroughTheIrqVector, PushesAndPulls and
RtsAndRtiPull.) [R44, R45] -/
def Obligations.StatusByteLayout : Prop :=
  (∀ (f : Flags) (b4 : Bool),
    let p := f.pack b4
    p = f.statusByte b4 ∧
    p.getLsbD 0 = f.c ∧ p.getLsbD 1 = f.z ∧ p.getLsbD 2 = f.i ∧ p.getLsbD 3 = f.d ∧ p.getLsbD 4 = b4 ∧
      p.getLsbD 5 = true ∧ p.getLsbD 6 = f.v ∧ p.getLsbD 7 = f.n) ∧
  (∀ v : Byte, Flags.unpack v = {
    c := v.getLsbD 0, z := v.getLsbD 1, i := v.getLsbD 2, d := v.getLsbD 3, b := v.getLsbD 4, v := v.getLsbD 6,
    n := v.getLsbD 7 } ∧ Flags.unpack (v ^^^ 0x20) = Flags.unpack v) ∧
  (∀ (k : Interrupt) (s : State),
    (interrupt k s).bus[2]? = some (.write (stackAddr (s.sp - 2)) (s.flags.pack false))) ∧
  (∀ s : State, ∃ t, exec .brk s = .next t ∧
    t.bus[2]? = some (.write (stackAddr (s.sp - 2)) (s.flags.pack true))) ∧
  (∀ s : State, ∃ t, exec .php s = .next t ∧ t.bus[0]? = some (.write (stackAddr s.sp) (s.flags.pack true))) ∧
  (∀ (s : State) (i : Instr), i = .plp ∨ i = .rti →
    ∃ t, exec i s = .next t ∧ t.flags = Flags.unpack (s.peek (stackAddr (s.sp + 1))))

/-- For every state, exec of each of the seven flag instructions answers a next state in which the one flag has its
new value and every other flag, every register and every byte is as before, but for the cost and the scratch;
exec of every row of NOP (0xEA and the 27 unofficial opcodes, with every operand) answers one that is the state
before it but for the cost (with the page penalty of the absx forms) and the scratch: no operand is read. (CLI
is R400, whose masking part is InterruptsComeBeforeTheFetch.) [R398, R399, R401, R402, R403, R404, R405, R431] -/
def Obligations.FlagInstructionsAndNops : Prop :=
  ∀ (i : Instr) (s : State),
    (∀ f : Flags, ((i = .clc ∧ f = { s.flags with c := false }) ∨ (i = .sec ∧ f = { s.flags with c := true }) ∨
        (i = .cli ∧ f = { s.flags with i := false }) ∨ (i = .sei ∧ f = { s.flags with i := true }) ∨
        (i = .cld ∧ f = { s.flags with d := false }) ∨ (i = .sed ∧ f = { s.flags with d := true }) ∨
        (i = .clv ∧ f = { s.flags with v := false })) →
      ∃ t, exec i s = .next t ∧ EndsAs i s t { s with flags := f } ∧ t.bus = s.bus) ∧
    (i.Is .nop → ∃ t, exec i s = .next t ∧ EndsAs i s t s ∧ t.bus = s.bus ∧ t.draws = s.draws)

/-- For every row of DCP, ISC, SLO, RLA, SRE and RRA (7 modes each) and every state whose arrays are in canonical
form, with m the operand byte at the resolved address a and c the carry before: the memory result r is m - 1, m
+ 1, 2m, 2m + c, m/2, m/2 + 128c modulo 256, written after m at a; then DCP compares A with r; ISC subtracts r
from A with borrow; SLO, RLA, SRE put A or, and, exclusive-or r into A with C the bit shifted out; RRA adds r to
A with the bit rotated out as carry-in. C, Z, N (and V for ISC and RRA) follow, every other flag and register is
unchanged, the bus record grows by the pointer reads, one read of m, the write of m and the write of r, every
byte outside the stored one reads as before, and in RAM or PRG-RAM r reads back. [R435, R436, R437, R438, R439,
R440] -/
def Obligations.UnofficialReadModifyWrite : Prop :=
  ∀ (i : Instr) (s : State) (r a' : Byte) (f : Flags), s.MemoryOk →
    let m := i.operandByte s
    let c : Nat := if s.flags.c then 1 else 0
    ((i.Is .dcp ∧ r = m - 1 ∧ a' = s.a ∧ f = { s.flags with
        c := decide (r.toNat ≤ s.a.toNat), z := decide (s.a = r), n := decide (128 ≤ (s.a - r).toNat) }) ∨
      (i.Is .isc ∧ r = m + 1 ∧ a' = s.a - r - BitVec.ofNat 8 (1 - c) ∧ f = { s.flags.zn a' with
        c := decide (r.toNat + (1 - c) ≤ s.a.toNat)
        v := decide (s.a.toInt - r.toInt - (1 - c : Nat) < -128 ∨ 127 < s.a.toInt - r.toInt - (1 - c : Nat)) }) ∨
      (i.Is .slo ∧ r = BitVec.ofNat 8 (2 * m.toNat) ∧ a' = s.a ||| r ∧
        f = { s.flags.zn a' with c := decide (128 ≤ m.toNat) }) ∨
      (i.Is .rla ∧ r = BitVec.ofNat 8 (2 * m.toNat + c) ∧ a' = s.a &&& r ∧
        f = { s.flags.zn a' with c := decide (128 ≤ m.toNat) }) ∨
      (i.Is .sre ∧ r = BitVec.ofNat 8 (m.toNat / 2) ∧ a' = s.a ^^^ r ∧
        f = { s.flags.zn a' with c := decide (m.toNat % 2 = 1) }) ∨
      (i.Is .rra ∧ r = BitVec.ofNat 8 (m.toNat / 2 + 128 * c) ∧ a' = s.a + r + BitVec.ofNat 8 (m.toNat % 2) ∧
        f = { s.flags.zn a' with
          c := decide (255 < s.a.toNat + r.toNat + m.toNat % 2)
          v := decide (s.a.toInt + r.toInt + (m.toNat % 2 : Nat) < -128 ∨
            127 < s.a.toInt + r.toInt + (m.toNat % 2 : Nat)) })) →
    ∃ (a : Word) (t : State), i.place s = .mem a ∧ exec i s = .next t ∧
      EndsAs i s t { memWrite a r (memWrite a m s) with a := a', flags := f } ∧
      t.bus = .write a r :: .write a m :: .read a m :: (i.operand.pointerReads s ++ s.bus) ∧
      SameBytesBut a s t ∧
      (a.toNat < 0x2000 ∨ (0x6000 ≤ a.toNat ∧ a.toNat < 0x8000) → ∀ b, sameByte a b → t.peek b = r)

/-- For every state and every byte m: ANC (0x0B and 0x2B) makes A the and of A and m with C = N = its bit 7; ALR
makes A half of A & m with C the bit shifted out; ARR makes A half of A & m plus 128 times the carry, with C bit
6 of the result and V the exclusive-or of its bits 6 and 5; AXS makes X the difference (A & X) - m modulo 256
with C = no borrow, carry-in and V not used. Z and N follow the register written; everything else is as before
but for the cost, the scratch and the read of the immediate byte. [R441, R442, R443, R444] -/
def Obligations.UnofficialImmediates : Prop :=
  ∀ (i : Instr) (s : State),
    let m := i.operandByte s
    let t' := s.a &&& m
    let c : Nat := if s.flags.c then 1 else 0
    let r : Byte := BitVec.ofNat 8 (t'.toNat / 2 + 128 * c)
    let x' : Byte := (s.a &&& s.x) - m
    (i.Is .anc → ∃ t, exec i s = .next t ∧
      EndsAs i s t { s with a := t', flags := { s.flags.zn t' with c := decide (128 ≤ t'.toNat) } }) ∧
    (i.Is .alr → ∃ t, exec i s = .next t ∧
      EndsAs i s t { s with
        a := BitVec.ofNat 8 (t'.toNat / 2)
        flags := { s.flags.zn (BitVec.ofNat 8 (t'.toNat / 2)) with c := decide (t'.toNat % 2 = 1) } }) ∧
    (i.Is .arr → ∃ t, exec i s = .next t ∧
      EndsAs i s t { s with
        a := r
        flags := { s.flags.zn r with
          c := decide (64 ≤ r.toNat % 128), v := decide (64 ≤ r.toNat % 128) != decide (32 ≤ r.toNat % 64) } }) ∧
    (i.Is .axs → ∃ t, exec i s = .next t ∧
      EndsAs i s t { s with
        x := x', flags := { s.flags.zn x' with c := decide (m.toNat ≤ (s.a &&& s.x).toNat) } })

/-- For every state (PC past the instruction) and operand byte or word: imp has no operand, acc is the accumulator;
imm and rel are the byte at PC - 1; zp is the byte itself, zpx and zpy wrap modulo 256; abs is the word, absx
and absy the sum modulo 65536; only absx and absy can cross a page, exactly when the high bytes of the base and
the sum differ; none of these modes reads the bus or changes the state. [R269, R270, R271, R272, R273, R274,
R275, R276, R277, R280] -/
def Obligations.DirectEffectiveAddresses : Prop :=
  ∀ (s : State) (v : Byte) (w : Word),
    resolve .imp s = ⟨.none, false, s⟩ ∧ resolve .acc s = ⟨.acc, false, s⟩ ∧
    resolve (.imm v) s = ⟨.inline v (s.pc - 1), false, s⟩ ∧ resolve (.rel v) s = ⟨.inline v (s.pc - 1), false, s⟩ ∧
    resolve (.zp v) s = ⟨.mem (BitVec.ofNat 16 v.toNat), false, s⟩ ∧
    resolve (.zpx v) s = ⟨.mem (BitVec.ofNat 16 ((v.toNat + s.x.toNat) % 256)), false, s⟩ ∧
    resolve (.zpy v) s = ⟨.mem (BitVec.ofNat 16 ((v.toNat + s.y.toNat) % 256)), false, s⟩ ∧
    resolve (.abs w) s = ⟨.mem w, false, s⟩ ∧
    (let ea : Word := BitVec.ofNat 16 (w.toNat + s.x.toNat)
     resolve (.absx w) s = ⟨.mem ea, decide (w.toNat / 256 ≠ ea.toNat / 256), s⟩) ∧
    (let ea : Word := BitVec.ofNat 16 (w.toNat + s.y.toNat)
     resolve (.absy w) s = ⟨.mem ea, decide (w.toNat / 256 ≠ ea.toNat / 256), s⟩)

/-- For every state and operand: indx takes its address from the zero-page bytes at p = (z + X) mod 256 and (p + 1)
mod 256, low first, and crosses no page; indy takes a base from the zero-page bytes at z and (z + 1) mod 256,
adds Y modulo 65536, and crosses a page exactly when the high bytes differ; ind takes its word from w and from
the next byte of the same page. Each makes just those two bus reads and changes nothing else of the state but
the draws of reads in an oracle range. [R278, R279, R281] -/
def Obligations.PointerEffectiveAddresses : Prop :=
  ∀ (s : State) (z : Byte) (w : Word),
    let zero (n : Nat) : Word := BitVec.ofNat 16 (n % 256)
    (let p := z.toNat + s.x.toNat
     let l := s.peek (zero p)
     let h := s.peek (zero (p + 1))
     resolve (.indx z) s = ⟨.mem (h.pair l), false,
       { s with bus := .read (zero (p + 1)) h :: .read (zero p) l :: s.bus }⟩) ∧
    (let l := s.peek (zero z.toNat)
     let h := s.peek (zero (z.toNat + 1))
     let b := h.pair l
     let ea : Word := BitVec.ofNat 16 (b.toNat + s.y.toNat)
     resolve (.indy z) s = ⟨.mem ea, decide (b.toNat / 256 ≠ ea.toNat / 256),
       { s with bus := .read (zero (z.toNat + 1)) h :: .read (zero z.toNat) l :: s.bus }⟩) ∧
    (let high : Word := (w &&& 0xFF00) ||| ((w + 1) &&& 0x00FF)
     let l := s.peek w
     let h := (recordRead w l s).peek high
     resolve (.ind w) s = ⟨.mem (h.pair l), false, recordRead high h (recordRead w l s)⟩)

/-- For every state with the block's invariant and every address: below 0x2000 a read finds RAM at the address
modulo 0x800, and the four copies agree; from 0x2000 and from 0x4000 up to 0x401F it is an oracle's answer for
slot addr mod 8 or for the address; from 0x4020 to 0x5FFF it is 0; from 0x6000 to 0x7FFF PRG-RAM; from 0x8000
PRG-ROM at the offset of its 8KB window plus the low 13 bits, an index inside PRG-ROM. A read puts itself on the
bus record and counts a draw for an oracle, and changes nothing else. Writes: a write below 0x2000 stores into
RAM modulo 0x800, one to 0x6000-0x7FFF into PRG-RAM, one to 0x2000-0x5FFF changes no state but the record, one
at 0x8000 or above is the variant's register write and never changes PRG-ROM. Events: a write to 0x2000-0x3FFF
adds PpuRegWrite(addr mod 8, v) and nothing else to the events delivered to the collaborators, one to
0x4000-0x401F IoWrite(addr, v), a write anywhere else none; a read adds the matching oracle read with its byte
in those two ranges, and none anywhere else. (That the events are a view of the bus record is log entry 8,
DESIGN CHOICE.) [R79, R80, R81, R82, R124, R125] -/
def Obligations.CpuAddressMap : Prop :=
  ∀ (s : State) (a : Word) (v : Byte), s.Inv →
    let n := a.toNat
    (n < 0x2000 → s.peek a = s.ram.get (n % 0x800) ∧ (∀ b, sameByte a b → s.peek b = s.peek a) ∧
      memWrite a v s = { s with ram := s.ram.set (n % 0x800) v, bus := .write a v :: s.bus }) ∧
    (0x2000 ≤ n → n < 0x4000 → s.peek a = Config.ppuRegRead s.draws (BitVec.ofNat 3 n)) ∧
    (0x4000 ≤ n → n < 0x4020 → s.peek a = Config.ioRead s.draws a) ∧
    (0x4020 ≤ n → n < 0x6000 → s.peek a = 0) ∧
    (0x2000 ≤ n → n < 0x6000 → memWrite a v s = { s with bus := .write a v :: s.bus }) ∧
    (0x6000 ≤ n → n < 0x8000 → s.peek a = s.prgRam.get (n - 0x6000) ∧
      memWrite a v s = { s with prgRam := s.prgRam.set (n - 0x6000) v, bus := .write a v :: s.bus }) ∧
    (0x8000 ≤ n →
      (∃ (w : Fin 4) (off : Nat), w.val = (n - 0x8000) / 0x2000 ∧ off = s.prgWin[w] + n % 0x2000 ∧ off < s.prgLen ∧
        s.peek a = s.cart.prg.get off) ∧
      memWrite a v s = mapperWrite a v { s with bus := .write a v :: s.bus } ∧ (memWrite a v s).cart = s.cart) ∧
    memRead a s = (s.peek a, { s with
      bus := .read a (s.peek a) :: s.bus
      draws := s.draws + (if 0x2000 ≤ n ∧ n < 0x4020 then 1 else 0) }) ∧
    (memWrite a v s).events = s.events ++
      (if 0x2000 ≤ n ∧ n < 0x4000 then [.ppuRegWrite (BitVec.ofNat 3 (n % 8)) v]
      else if 0x4000 ≤ n ∧ n < 0x4020 then [.ioWrite a v]
      else []) ∧
    (memRead a s).2.events = s.events ++
      (if 0x2000 ≤ n ∧ n < 0x4000 then [.ppuRegRead (BitVec.ofNat 3 (n % 8)) (s.peek a)]
      else if 0x4000 ≤ n ∧ n < 0x4020 then [.ioRead a (s.peek a)]
      else [])

/-- For every state whose arrays are in canonical form, every address a and byte v: after a write of v at a in RAM
or PRG-RAM a read of a, and of each mirror of a, finds v; every other byte below 0x8000 (and, where a is below
0x8000, in PRG-ROM) reads as before; a write to 0x2000-0x5FFF changes no byte at all; the arrays stay canonical.
[R79, R84, R92, R95, R125] -/
def Obligations.WriteThenRead : Prop :=
  ∀ (s : State) (a : Word) (v : Byte), s.SizesOk → s.MemoryOk →
    (a.toNat < 0x2000 ∨ (0x6000 ≤ a.toNat ∧ a.toNat < 0x8000) → ∀ b, sameByte a b → (memWrite a v s).peek b = v) ∧
    SameBytesBut a s (memWrite a v s) ∧
    (0x2000 ≤ a.toNat → a.toNat < 0x6000 → SameBytes s (memWrite a v s)) ∧
    (memWrite a v s).MemoryOk

/-- For every state and every number: PpuRead and PpuWrite reduce the address modulo 0x4000. Below 0x2000 a read
finds CHR-ROM, or CHR-RAM where the cartridge has no CHR-ROM, at the offset of its 1KB window plus the low 10
bits, and on every variant but MMC2 and MMC4 (whose latches LatchRegistersAndReads states) it changes nothing
but the bus record; a write stores there into CHR-RAM and is ignored by CHR-ROM. From 0x2000 to 0x3EFF both
reach VRAM at the index of the mirroring (Horizontal: tables 0,1 and 2,3 share; Vertical: 0,2 and 1,3;
SingleLower and SingleUpper: one table). From 0x3F00 a read is the palette oracle's answer and a write changes
nothing but the record. Events: a write from 0x3F00 adds PaletteWrite(a, v), with the reduced address, and
nothing else to the events delivered to the collaborators, a read from there PaletteRead with its byte; an
access below 0x3F00 adds none. (That the events are a view of the bus record is log entry 8, DESIGN CHOICE.)
[R86, R89, R91, R126] -/
def Obligations.PpuSpace : Prop :=
  ∀ (s : State) (addr : Nat) (v : Byte),
    let n := addr % 0x4000
    let a : PpuAddr := BitVec.ofNat 14 n
    let off := s.chrWin[n / 0x400 % 8]'(Nat.mod_lt _ (by decide)) + n % 0x400
    let nt := (n - 0x2000) % 0x1000
    let index := match s.mirroring with
      | .horizontal => nt / 0x800 * 0x400 + nt % 0x400
      | .vertical => nt / 0x400 % 2 * 0x400 + nt % 0x400
      | .singleLower => nt % 0x400
      | .singleUpper => 0x400 + nt % 0x400
    let byte : Byte := if s.cart.chrUnits = 0 then s.chrRam.get off else s.cart.chr.get off
    (n < 0x2000 →
      (ppuRead addr s).1 = byte ∧
      ((∀ r, s.mapper ≠ .mmc2 r) → (∀ r, s.mapper ≠ .mmc4 r) →
        ppuRead addr s = (byte, { s with bus := .ppuRead a byte :: s.bus })) ∧
      ppuWrite addr v s =
        (if s.cart.chrUnits = 0 then { s with chrRam := s.chrRam.set off v, bus := .ppuWrite a v :: s.bus }
        else { s with bus := .ppuWrite a v :: s.bus })) ∧
    (0x2000 ≤ n → n < 0x3F00 →
      ppuRead addr s = (s.vram.get index, { s with bus := .ppuRead a (s.vram.get index) :: s.bus }) ∧
      ppuWrite addr v s = { s with vram := s.vram.set index v, bus := .ppuWrite a v :: s.bus }) ∧
    (0x3F00 ≤ n →
      ppuRead addr s = (Config.paletteRead s.draws a, { s with
        bus := .ppuRead a (Config.paletteRead s.draws a) :: s.bus, draws := s.draws + 1 }) ∧
      ppuWrite addr v s = { s with bus := .ppuWrite a v :: s.bus }) ∧
    (ppuWrite addr v s).events = s.events ++ (if 0x3F00 ≤ n then [.paletteWrite a v] else []) ∧
    (ppuRead addr s).2.events = s.events ++ (if 0x3F00 ≤ n then [.paletteRead a (ppuRead addr s).1] else [])

/-- For every state whose arrays are in canonical form: SaveRam returns 8192 times the number of units bytes, byte k
being PRG-RAM's byte k. LoadRam of bytes makes byte k of PRG-RAM the k-th of them for k below both the number of
bytes and the length of PRG-RAM, leaves every other byte of it and every other field as it was, and keeps the
canonical form. [R100] -/
def Obligations.SaveAndLoadPrgRam : Prop :=
  ∀ (s : State) (bytes : List Byte), s.MemoryOk →
    (saveRam s).length = 8192 * s.cart.prgRamUnits ∧
    (∀ k, k < 8192 * s.cart.prgRamUnits → (saveRam s).getD k 0 = s.prgRam.get k) ∧
    loadRam bytes s = { s with prgRam := (loadRam bytes s).prgRam } ∧
    (∀ k, (loadRam bytes s).prgRam.get k =
      if k < bytes.length ∧ k < 8192 * s.cart.prgRamUnits then bytes.getD k 0 else s.prgRam.get k) ∧
    (loadRam bytes s).MemoryOk

/-- For every state with at least one PRG unit, every address of 0x8000-0xFFFF and every byte v: NROM changes
nothing but the bus record; UxROM, Camerica (at 0xC000 and above only), UN1ROM set the low 16KB to bank v, v mod
16, (v / 4) mod 8; mapper 180 the high 16KB to v mod 8; AxROM, ColorDreams, GxROM the 32KB to v mod 8, v mod 4,
(v / 16) mod 4; CNROM, ColorDreams, GxROM the 8KB of CHR to v, v / 16, v mod 4; AxROM sets the mirroring by bit
4. Offsets are reduced modulo the array length. Every other window and every other field is unchanged. At
power-on the fixed windows are as each rule gives them (bank 0, or the last bank), with the register 0 applied.
(The register a variant is left with is the whole byte v: on mappers 11, 66, 71, 94 and 180, whose rules give it
no width, that is the model's choice, log entry 19.) [R130, R131, R132, R133, R134, R135, R136, R137, R138,
R139, notes/assumptions/19.md] -/
def Obligations.SingleRegisterMappers : Prop :=
  ∀ (s : State) (a : Word) (v : Byte), 1 ≤ s.cart.prgUnits → 0x8000 ≤ a.toNat →
    let p (b part : Nat) (unit : Nat) : Nat := (b * unit + part * 0x2000) % (16384 * s.cart.prgUnits)
    let chrLen : Nat := if s.cart.chrUnits = 0 then 8192 else 8192 * s.cart.chrUnits
    let chr (b : Nat) : Vector Nat 8 := Vector.ofFn fun j => (b * 0x2000 + j.val * 0x400) % chrLen
    let n := v.toNat
    let low16 (b : Nat) (w : Vector Nat 4) : Vector Nat 4 := #v[p b 0 0x4000, p b 1 0x4000, w[2], w[3]]
    let high16 (b : Nat) (w : Vector Nat 4) : Vector Nat 4 := #v[w[0], w[1], p b 0 0x4000, p b 1 0x4000]
    let prg32 (b : Nat) : Vector Nat 4 := #v[p b 0 0x8000, p b 1 0x8000, p b 2 0x8000, p b 3 0x8000]
    let last := s.cart.prgUnits - 1
    let s' : State := { s with bus := .write a v :: s.bus }
    let on (m : Mapper) : State := mapperPowerOn m s
    (s.mapper = .nrom → memWrite a v s = s') ∧
    (∀ r, s.mapper = .uxrom r → memWrite a v s = { s' with mapper := .uxrom v, prgWin := low16 n s.prgWin }) ∧
    (∀ r, s.mapper = .cnrom r → memWrite a v s = { s' with mapper := .cnrom v, chrWin := chr n }) ∧
    (∀ r, s.mapper = .axrom r → memWrite a v s = { s' with
      mapper := .axrom v, prgWin := prg32 (n % 8)
      mirroring := if n / 16 % 2 = 1 then .singleUpper else .singleLower }) ∧
    (∀ r, s.mapper = .colorDreams r → memWrite a v s = { s' with
      mapper := .colorDreams v, prgWin := prg32 (n % 4), chrWin := chr (n / 16) }) ∧
    (∀ r, s.mapper = .gxrom r → memWrite a v s = { s' with
      mapper := .gxrom v, prgWin := prg32 (n / 16 % 4), chrWin := chr (n % 4) }) ∧
    (∀ r, s.mapper = .camerica r → memWrite a v s =
      if 0xC000 ≤ a.toNat then { s' with mapper := .camerica v, prgWin := low16 (n % 16) s.prgWin } else s') ∧
    (∀ r, s.mapper = .un1rom r → memWrite a v s = { s' with
      mapper := .un1rom v, prgWin := low16 (n / 4 % 8) s.prgWin }) ∧
    (∀ r, s.mapper = .unromFixFirst r → memWrite a v s = { s' with
      mapper := .unromFixFirst v, prgWin := high16 (n % 8) s.prgWin }) ∧
    (∀ m, m ∈ [Mapper.nrom, .cnrom 0, .colorDreams 0, .gxrom 0] →
      on m = { s with mapper := m, prgWin := prg32 0, chrWin := chr 0 }) ∧
    (on (.axrom 0) = { s with mapper := .axrom 0, prgWin := prg32 0, chrWin := chr 0, mirroring := .singleLower }) ∧
    (∀ m, m ∈ [Mapper.uxrom 0, .camerica 0, .un1rom 0] →
      on m = { s with mapper := m, prgWin := low16 0 (high16 last s.prgWin), chrWin := chr 0 }) ∧
    (on (.unromFixFirst 0) = { s with
      mapper := .unromFixFirst 0, prgWin := low16 0 (high16 0 s.prgWin), chrWin := chr 0 })

/-- For every state of an MMC1 cartridge, every address of 0x8000-0xFFFF and every byte v: a write at the PC of the
last port write changes nothing but the bus record. Otherwise that PC is remembered; with v[7] = 1 shift and
count are cleared, bits 3:2 of control set, bit 4 cleared and bits 1:0 kept; with v[7] = 0 bit 0 of v goes to
bit count of shift, and where that was the fifth bit the value goes to control, chr0, chr1 or prg by bits 14:13
of the address and shift and count are cleared. After a reset write or a fifth bit the offsets and the mirroring
are those of Mmc1Recompute; after another data write they are unchanged. Nothing else changes. [R141, R142,
R144, R145] -/
def Obligations.Mmc1SerialPort : Prop :=
  ∀ (s : State) (r : Mmc1) (a : Word) (v : Byte), s.mapper = .mmc1 r → 0x8000 ≤ a.toNat →
    let s' : State := { s with bus := .write a v :: s.bus }
    let r' : Mmc1 := { r with lastWritePC := some s.pc }
    let shift : BitVec 5 := r.shift ||| (if v.toNat % 2 = 1 then BitVec.ofNat 5 (2 ^ r.count.val) else 0)
    let done (q : Mmc1) : State := mmc1Recompute q { s' with mapper := .mmc1 q }
    (r.lastWritePC = some s.pc → memWrite a v s = s') ∧
    (r.lastWritePC ≠ some s.pc → 128 ≤ v.toNat →
      memWrite a v s = done { r' with shift := 0, count := 0, control := (r.control ||| 0x0C) &&& 0x0F }) ∧
    (r.lastWritePC ≠ some s.pc → v.toNat < 128 → r.count.val < 4 →
      ∃ c : Fin 5, c.val = r.count.val + 1 ∧
        memWrite a v s = { s' with mapper := .mmc1 { r' with shift := shift, count := c } }) ∧
    (r.lastWritePC ≠ some s.pc → v.toNat < 128 → r.count.val = 4 →
      memWrite a v s = done (
        let q : Mmc1 := { r' with shift := 0, count := 0 }
        if a.toNat < 0xA000 then { q with control := shift }
        else if a.toNat < 0xC000 then { q with chr0 := shift }
        else if a.toNat < 0xE000 then { q with chr1 := shift }
        else { q with prg := shift }))

/-- For every state with at least one PRG unit and all MMC1 registers, Mmc1Recompute gives: with control[3:2] = 0 or
1 the 32KB bank prg[3:1]; with 2 the first 16KB bank at 0x8000 and bank prg[3:0] at 0xC000; with 3 bank prg[3:0]
at 0x8000 and the last at 0xC000; with control[4] = 0 the 8KB CHR bank chr0 / 2, with 1 the 4KB banks chr0 and
chr1; mirroring SingleLower, SingleUpper, Vertical, Horizontal for control[1:0] = 0, 1, 2, 3; and changes
nothing else. [R149, R150, R151, R152] -/
def Obligations.Mmc1Offsets : Prop :=
  ∀ (s : State) (r : Mmc1), 1 ≤ s.cart.prgUnits →
    let prgLen := 16384 * s.cart.prgUnits
    let chrLen : Nat := if s.cart.chrUnits = 0 then 8192 else 8192 * s.cart.chrUnits
    let b := r.prg.toNat % 16
    let p16 (b j : Nat) : Nat := (b * 0x4000 + j * 0x2000) % prgLen
    let t := mmc1Recompute r s
    t = { s with prgWin := t.prgWin, chrWin := t.chrWin, mirroring := t.mirroring } ∧
    t.prgWin = (match r.control.toNat / 4 % 4 with
      | 2 => #v[p16 0 0, p16 0 1, p16 b 0, p16 b 1]
      | 3 => #v[p16 b 0, p16 b 1, p16 (s.cart.prgUnits - 1) 0, p16 (s.cart.prgUnits - 1) 1]
      | _ => Vector.ofFn fun j => (b / 2 * 0x8000 + j.val * 0x2000) % prgLen) ∧
    t.chrWin = (if r.control.toNat / 16 = 0 then
        Vector.ofFn fun j => (r.chr0.toNat / 2 * 0x2000 + j.val * 0x400) % chrLen
      else Vector.ofFn fun j =>
        if j.val < 4 then (r.chr0.toNat * 0x1000 + j.val * 0x400) % chrLen
        else (r.chr1.toNat * 0x1000 + (j.val - 4) * 0x400) % chrLen) ∧
    t.mirroring = (match r.control.toNat % 4 with
      | 0 => .singleLower
      | 1 => .singleUpper
      | 2 => .vertical
      | _ => .horizontal)

/-- For every state of an MMC3 cartridge, every address of 0x8000-0xFFFF and every byte v: by bits 14:13 and bit 0
of the address a write sets bankSelect, or R[bankSelect mod 8], each followed by Mmc3Recompute (which gives the
offsets from bankSelect and R: Mmc3Offsets); or the mirroring by v[0]; or nothing (PRG-RAM protect); or
irqLatch; or clears irqCounter; or clears irqEnabled and the IRQ latch; or sets irqEnabled. Of a Namco 108
cartridge, below 0xA000 an even address sets sel to v mod 8 and an odd one R[sel], followed by
Namco108Recompute; a write at 0xA000 or above is ignored; its power-on has sel and R all 0, recomputed, over the
header's mirroring. Nothing else changes but the bus record. [R161, R162, R163, R164, R165, R168, R169, R170,
R173, R175] -/
def Obligations.IndexedBankRegisters : Prop :=
  (∀ (s : State) (r : Mmc3) (a : Word) (v : Byte), s.mapper = .mmc3 r → 0x8000 ≤ a.toNat →
    let s' : State := { s with bus := .write a v :: s.bus }
    let done (q : Mmc3) : State := mmc3Recompute q { s' with mapper := .mmc3 q }
    let odd := a.toNat % 2 = 1
    let k : Fin 8 := ⟨r.bankSelect.toNat % 8, Nat.mod_lt _ (by decide)⟩
    memWrite a v s =
      if a.toNat < 0xA000 then
        if odd then done { r with r := r.r.set k v } else done { r with bankSelect := v }
      else if a.toNat < 0xC000 then
        if odd then s' else { s' with mirroring := if v.toNat % 2 = 0 then .vertical else .horizontal }
      else if a.toNat < 0xE000 then
        if odd then { s' with mapper := .mmc3 { r with irqCounter := 0 } }
        else { s' with mapper := .mmc3 { r with irqLatch := v } }
      else if odd then { s' with mapper := .mmc3 { r with irqEnabled := true } }
      else { s' with mapper := .mmc3 { r with irqEnabled := false }, irqPending := false }) ∧
  (∀ (s : State) (r : Namco108) (a : Word) (v : Byte), s.mapper = .namco108 r → 0x8000 ≤ a.toNat →
    let s' : State := { s with bus := .write a v :: s.bus }
    let k : Fin 8 := ⟨r.sel.toNat, r.sel.isLt⟩
    let q : Namco108 := { r with r := r.r.set k v }
    memWrite a v s =
      if 0xA000 ≤ a.toNat then s'
      else if a.toNat % 2 = 0 then { s' with mapper := .namco108 { r with sel := BitVec.ofNat 3 v.toNat } }
      else namco108Recompute q { s' with mapper := .namco108 q }) ∧
  (∃ q : Namco108, mapperOfNumber 206 = some (.namco108 q) ∧ q.sel = 0 ∧ (∀ k : Fin 8, q.r[k] = 0) ∧
    ∀ s : State, mapperPowerOn (.namco108 q) s = namco108Recompute q { s with mapper := .namco108 q })

/-- For every state with at least one PRG unit: Mmc3Recompute puts, with bankSelect[6] = 0, the 8KB banks R6, R7,
last - 1, last in the four PRG windows and, with 1, last - 1, R7, R6, last; with bankSelect[7] = 0 the 1KB banks
R0 with bit 0 cleared, R0 with bit 0 set, R1 likewise, R2, R3, R4, R5 in the eight CHR windows and, with 1, R2,
R3, R4, R5 and then the four from R0 and R1; Namco108Recompute does what bankSelect = 0 does; neither changes
anything else (irq_pending neither). [R166, R167, R176] -/
def Obligations.Mmc3Offsets : Prop :=
  ∀ (s : State) (q : Mmc3) (m : Namco108), 1 ≤ s.cart.prgUnits →
    let last := 2 * s.cart.prgUnits - 1
    let p (b : Nat) : Nat := b * 0x2000 % (16384 * s.cart.prgUnits)
    let chrLen : Nat := if s.cart.chrUnits = 0 then 8192 else 8192 * s.cart.chrUnits
    let c (b : Nat) : Nat := b * 0x400 % chrLen
    let even (v : Byte) : Nat := v.toNat / 2 * 2
    let pairs (r : Vector Byte 8) : List Nat := [c (even r[0]), c (even r[0] + 1), c (even r[1]), c (even r[1] + 1)]
    let singles (r : Vector Byte 8) : List Nat := [c r[2].toNat, c r[3].toNat, c r[4].toNat, c r[5].toNat]
    let t := mmc3Recompute q s
    let u := namco108Recompute m s
    t = { s with prgWin := t.prgWin, chrWin := t.chrWin } ∧
    t.prgWin.toList = (if q.bankSelect.getLsbD 6 then [p (last - 1), p q.r[7].toNat, p q.r[6].toNat, p last]
      else [p q.r[6].toNat, p q.r[7].toNat, p (last - 1), p last]) ∧
    t.chrWin.toList = (if q.bankSelect.getLsbD 7 then singles q.r ++ pairs q.r else pairs q.r ++ singles q.r) ∧
    u = { s with prgWin := u.prgWin, chrWin := u.chrWin } ∧
    u.prgWin.toList = [p m.r[6].toNat, p m.r[7].toNat, p (last - 1), p last] ∧
    u.chrWin.toList = pairs m.r ++ singles m.r

/-- In an active session of an MMC3 cartridge with irqEnabled, no IRQ pending and irqCounter = R at least 1: the
first R - 1 ticks count down and leave the IRQ latch clear, tick R makes the counter 0 and sets the latch, tick
R + 1 reloads the counter from irqLatch; nothing else changes. With the interrupt disabled the same ticks never
set the latch; with irqLatch = 0 and the counter 0 no tick changes anything; on any other variant a tick changes
nothing. And for every state of an MMC3 cartridge, whatever the latches, the counter and the enable bit hold,
one tick is as R171 writes it: a counter of 0 reloads from irqLatch and leaves the IRQ latch as it is; a counter
of k + 1 becomes k, and sets the IRQ latch where k = 0 and the interrupt is enabled, and otherwise leaves it as
it is; nothing else changes. [R171] -/
def Obligations.Mmc3ScanlineCounter : Prop :=
  let ticks (k : Nat) (s : State) : State := Nat.iterate scanlineTick k s
  let at' (r : Mmc3) (k : Nat) : Mmc3 := { r with irqCounter := r.irqCounter - BitVec.ofNat 8 k }
  (∀ (s : State) (r : Mmc3), s.mapper = .mmc3 r → 1 ≤ r.irqCounter.toNat → s.irqPending = false →
    (∀ k, k < r.irqCounter.toNat → ticks k s = { s with mapper := .mmc3 (at' r k) }) ∧
    ticks r.irqCounter.toNat s = { s with
      mapper := .mmc3 { r with irqCounter := 0 }, irqPending := r.irqEnabled } ∧
    ticks (r.irqCounter.toNat + 1) s = { s with
      mapper := .mmc3 { r with irqCounter := r.irqLatch }, irqPending := r.irqEnabled }) ∧
  (∀ (s : State) (r : Mmc3) (k : Nat), s.mapper = .mmc3 r → r.irqCounter = 0 → r.irqLatch = 0 → ticks k s = s) ∧
  (∀ (s : State) (k : Nat), (∀ r, s.mapper ≠ .mmc3 r) → ticks k s = s) ∧
  (∀ s : State, s.Active → HostAction.perform .scanlineTick s = scanlineTick s) ∧
  (∀ (s : State) (r : Mmc3), s.mapper = .mmc3 r →
    (r.irqCounter.toNat = 0 → scanlineTick s = { s with mapper := .mmc3 { r with irqCounter := r.irqLatch } }) ∧
    (∀ k, r.irqCounter.toNat = k + 1 → scanlineTick s = { s with
      mapper := .mmc3 { r with irqCounter := BitVec.ofNat 8 k }
      irqPending := if k = 0 ∧ r.irqEnabled = true then true else s.irqPending }))

/-- For every state of an MMC2 or MMC4 cartridge with at least one PRG unit: a CPU write at 0xA000, 0xB000, 0xC000,
0xD000, 0xE000 sets prgBank, chrFD0, chrFE0, chrFD1, chrFE1 (4 or 5 bits of v), one at 0xF000 the mirroring, one
at 0x8000 or 0x9000 nothing, and the offsets are recomputed; the latches stay. A PpuRead below 0x2000 answers
the CHR byte at the offset in force before it; on a trigger address (0x0FD8 and 0x0FE8, on MMC4 their groups of
8; 0x1FD8 to 0x1FDF and 0x1FE8 to 0x1FEF) it then sets latch 0 or 1 and recomputes; the registers stay. The
offsets: 4KB CHR banks chosen by the latches; MMC2 the 8KB bank prgBank and the last three; MMC4 the 16KB bank
prgBank and the last. [R181, R182, R183, R184, R185, R186, R187] -/
def Obligations.LatchRegistersAndReads : Prop :=
  ∀ (s : State) (r : LatchMapper) (is4 : Bool), 1 ≤ s.cart.prgUnits →
    let kind (q : LatchMapper) : Mapper := if is4 then .mmc4 q else .mmc2 q
    let prgLen := 16384 * s.cart.prgUnits
    let chrLen : Nat := if s.cart.chrUnits = 0 then 8192 else 8192 * s.cart.chrUnits
    let p8 (b : Int) : Nat := (b * 0x2000 % (prgLen : Int)).toNat
    let p16 (b j : Nat) : Nat := (b * 0x4000 + j * 0x2000) % prgLen
    let last8 : Int := 2 * (s.cart.prgUnits : Int) - 1
    let chr (q : LatchMapper) : Vector Nat 8 := Vector.ofFn fun j =>
      let b := if j.val < 4 then (if q.latch0 = .fd then q.chrFD0 else q.chrFE0)
        else (if q.latch1 = .fd then q.chrFD1 else q.chrFE1)
      (b.toNat * 0x1000 + j.val % 4 * 0x400) % chrLen
    let prg (q : LatchMapper) : Vector Nat 4 :=
      if is4 then #v[p16 q.prgBank.toNat 0, p16 q.prgBank.toNat 1, p16 (s.cart.prgUnits - 1) 0, p16 (s.cart.prgUnits - 1) 1]
      else #v[p8 q.prgBank.toNat, p8 (last8 - 2), p8 (last8 - 1), p8 last8]
    let done (q : LatchMapper) (u : State) : State :=
      { u with mapper := kind q, prgWin := prg q, chrWin := chr q }
    s.mapper = kind r →
    (∀ (a : Word) (v : Byte), 0x8000 ≤ a.toNat →
      let s' : State := { s with bus := .write a v :: s.bus }
      memWrite a v s = (match a.toNat / 0x1000 with
        | 0xA => done { r with prgBank := BitVec.ofNat 4 v.toNat } s'
        | 0xB => done { r with chrFD0 := BitVec.ofNat 5 v.toNat } s'
        | 0xC => done { r with chrFE0 := BitVec.ofNat 5 v.toNat } s'
        | 0xD => done { r with chrFD1 := BitVec.ofNat 5 v.toNat } s'
        | 0xE => done { r with chrFE1 := BitVec.ofNat 5 v.toNat } s'
        | 0xF => done r { s' with mirroring := if v.toNat % 2 = 0 then .vertical else .horizontal }
        | _ => s')) ∧
    (∀ n : Nat, n < 0x2000 →
      let v := (s.chr).get (s.chrWin[n / 0x400 % 8]'(Nat.mod_lt _ (by decide)) + n % 0x400)
      let s' : State := { s with bus := .ppuRead (BitVec.ofNat 14 n) v :: s.bus }
      let hit (base : Nat) (single : Bool) : Bool := n == base || (!single && base ≤ n && n < base + 8)
      ppuRead n s = (v,
        if hit 0x0FD8 (!is4) then done { r with latch0 := .fd } s'
        else if hit 0x0FE8 (!is4) then done { r with latch0 := .fe } s'
        else if hit 0x1FD8 false then done { r with latch1 := .fd } s'
        else if hit 0x1FE8 false then done { r with latch1 := .fe } s'
        else s'))

/-- For every state with the invariant (at least one PRG and PRG-RAM unit; every array in canonical form with its
indexes below its length; every PRG offset a multiple of 0x2000 below PRGLEN and every CHR offset a multiple of
0x400 below CHRLEN), if a step answers a next state, that state has the invariant; so no access through a mapper
is ever out of range, from whatever state the session is in. [R123, R484, R79, R125, R126] -/
def Obligations.StepsKeepTheInvariant : Prop :=
  ∀ s t : State, s.Inv → step s = .next t → t.Inv

/-- For every state with the invariant and coherent windows and every action of the environment between steps
(CpuTick, TriggerNmi, ScanlineTick, PpuRead, PpuWrite, LoadRam, Cancel), the state after the action has both.
[R97, R100, R183, R171, R541] -/
def Obligations.HostActionsKeepTheInvariant : Prop :=
  ∀ (s : State) (h : HostAction), s.Inv → s.Coherent → (h.perform s).Inv ∧ (h.perform s).Coherent

/-- State.reset (the power-on state of the blank cartridge that log entry 6 chooses, with every array zero by log
entry 5: the model's choices) has the invariant and coherent windows, its mapper variant is that of its
cartridge's number, and the session is running and not cancelled with no interrupt pending. [R520, R521, R523,
notes/assumptions/6.md] -/
def Obligations.ResetSatisfiesTheInvariant : Prop :=
  State.reset.Inv ∧ State.reset.Coherent ∧ State.reset.mapper.number = State.reset.cart.mapperNumber ∧
    State.reset.Active ∧ State.reset.NoInterrupt

/-- For every state in which recomputing the variant's offsets from its registers changes nothing, if a step answers
a next state, the same holds there, and the mapper is still the same variant: the offset tables (and the
mirroring of MMC1 and AxROM) are at all times a function of the mapper's registers and the cartridge. [R120,
R131, R152, R167, R187] -/
def Obligations.StepsKeepTheWindowsCoherent : Prop :=
  ∀ s t : State, s.Coherent → step s = .next t → t.Coherent ∧ t.mapper.number = s.mapper.number

/-- For every state, if a step answers a next state: the cartridge (PRG-ROM and CHR-ROM), VRAM, CHR-RAM and the
cancel flag are as before; an NMI or IRQ latch that is set after it was set before it (only TriggerNmi and
ScanlineTick set them); the bus record has grown at its end by the step's accesses, and the number of draws by
the oracle reads among them. [R124, R87, R83, R189, R495] -/
def Obligations.StepsNeverTouch : Prop :=
  ∀ s t : State, step s = .next t →
    t.cart = s.cart ∧ t.vram = s.vram ∧ t.chrRam = s.chrRam ∧ t.cancelled = s.cancelled ∧
    (t.nmiPending = true → s.nmiPending = true) ∧ (t.irqPending = true → s.irqPending = true) ∧
    ∃ new : List BusAccess, t.bus = new ++ s.bus ∧ t.draws = s.draws + new.countP BusAccess.isDraw

/-- For every instruction and every state, if exec answers a next state in which D differs, the instruction is CLD,
SED, PLP or RTI; if I differs, it is CLI, SEI, PLP, RTI or BRK; if B differs, it is PLP or RTI. And an interrupt
entry changes no flag at all. [R39, R40, R41, R53] -/
def Obligations.WhoWritesDecimalInterruptAndBreak : Prop :=
  (∀ (i : Instr) (s t : State), exec i s = .next t →
    (t.flags.d ≠ s.flags.d → i.operation ∈ [.cld, .sed, .plp, .rti]) ∧
    (t.flags.i ≠ s.flags.i → i.operation ∈ [.cli, .sei, .plp, .rti, .brk]) ∧
    (t.flags.b ≠ s.flags.b → i.operation ∈ [.plp, .rti])) ∧
  (∀ (k : Interrupt) (s : State), (interrupt k s).flags = s.flags)

/-- For every image: shorter than 16 bytes it is Truncated; else with a first byte sequence other than 4E 45 53 1A
it is BadMagic; else with a mapper number that is none of the 14 it is UnknownMapper of that number; else with 0
PRG units it is NoPrgRom; else shorter than header, trainer, PRG and CHR declare it is Truncated; else it loads,
and then no fault is raised. A refusal makes no state. [R99] -/
def Obligations.CartridgeHeaderFaults : Prop :=
  ∀ (image : List Byte) (init : Init),
    let b (k : Nat) : Nat := (image.getD k 0).toNat
    let number := b 7 / 16 * 16 + b 6 / 16
    let size := 16 + (if b 6 / 4 % 2 = 1 then 512 else 0) + 16384 * b 4 + 8192 * b 5
    let outcome := loadCartridge image init
    if image.length < 16 then outcome = .error (.malformedCartridge .truncated)
    else if ¬ (b 0 = 0x4E ∧ b 1 = 0x45 ∧ b 2 = 0x53 ∧ b 3 = 0x1A) then
      outcome = .error (.malformedCartridge .badMagic)
    else if number ∉ [0, 1, 2, 3, 4, 7, 9, 10, 11, 66, 71, 94, 180, 206] then
      outcome = .error (.malformedCartridge (.unknownMapper number))
    else if b 4 = 0 then outcome = .error (.malformedCartridge .noPrgRom)
    else if image.length < size then outcome = .error (.malformedCartridge .truncated)
    else ∃ s, outcome = .ok s

/-- Whenever an image loads, the state has: the cartridge fields of the header (PRG and CHR bytes after the header
and the trainer, max(1, byte 8) PRG-RAM units, the mapper number, the mirroring bit, the battery bit); RAM,
VRAM, PRG-RAM and, without CHR-ROM, CHR-RAM holding the INIT arrays; A = X = Y = 0, SP = 0xFD, I = 1 and the
other flags 0 (packed 0x24), no interrupt pending, owed 0, Running, not cancelled; PC the word that the mapped
reset vector 0xFFFC holds, with its two reads on the bus record and nothing else; the variant of the header's
number with its registers at their power-on values (the register of a single-register variant 0; MMC1 control 12
+ MMC1_POWERON_MIRRORING and everything else 0 or none; MMC3 and Namco 108 all 0, the interrupt disabled; MMC2
and MMC4 all 0, both latches FE); the header's mirroring, but SingleLower for AxROM and that of control for
MMC1; the windows those that the variant recomputes from its registers (Coherent), all in range (Inv). That a
short INIT list reads as 0 beyond its end is the model's choice (log entry 5, DESIGN CHOICE); so are the fields
scratch, cancelled and draws (log entries 7, 11, 3). [R98, R520, R521, R127, R131, R143, R174, R175, R188, R522,
notes/assumptions/5.md] -/
def Obligations.PowerOnState : Prop :=
  ∀ (image : List Byte) (init : Init) (s : State), loadCartridge image init = .ok s →
    let b (k : Nat) : Nat := (image.getD k 0).toNat
    let start := 16 + (if b 6 / 4 % 2 = 1 then 512 else 0)
    s.cart.prgUnits = b 4 ∧ s.cart.chrUnits = b 5 ∧ s.cart.prgRamUnits = max 1 (b 8) ∧
    s.cart.mapperNumber.toNat = b 7 / 16 * 16 + b 6 / 16 ∧ s.mapper.number = s.cart.mapperNumber ∧
    s.cart.mirroringBit = decide (b 6 % 2 = 1) ∧ s.cart.battery = decide (b 6 / 2 % 2 = 1) ∧
    (∀ k, k < 16384 * b 4 → s.cart.prg.get k = image.getD (start + k) 0) ∧
    (∀ k, k < 8192 * b 5 → s.cart.chr.get k = image.getD (start + 16384 * b 4 + k) 0) ∧
    (∀ k, k < 2048 → s.ram.get k = init.ram.getD k 0 ∧ s.vram.get k = init.vram.getD k 0) ∧
    (∀ k, k < 8192 * s.cart.prgRamUnits → s.prgRam.get k = init.prgRam.getD k 0) ∧
    (b 5 = 0 → ∀ k, k < 8192 → s.chrRam.get k = init.chrRam.getD k 0) ∧
    s.a = 0 ∧ s.x = 0 ∧ s.y = 0 ∧ s.sp = 0xFD ∧ s.flags.pack s.flags.b = 0x24 ∧ s.flags.b = false ∧
    s.scratch = none ∧ s.Active ∧ s.nmiPending = false ∧ s.irqPending = false ∧ s.owed = 0 ∧ s.draws = 0 ∧
    s.pc = (s.peek 0xFFFD).pair (s.peek 0xFFFC) ∧
    s.bus = [.read 0xFFFD (s.peek 0xFFFD), .read 0xFFFC (s.peek 0xFFFC)] ∧
    mapperOfNumber s.cart.mapperNumber.toNat = some s.mapper ∧
    (match s.mapper with
      | .nrom => True
      | .uxrom r | .cnrom r | .axrom r | .colorDreams r | .gxrom r | .camerica r | .un1rom r | .unromFixFirst r => r = 0
      | .mmc1 r => r.shift = 0 ∧ r.count = 0 ∧ r.chr0 = 0 ∧ r.chr1 = 0 ∧ r.prg = 0 ∧ r.lastWritePC = none ∧
        r.control.toNat = 12 + Config.mmc1PowerOnMirroring.toNat
      | .mmc3 r => r.bankSelect = 0 ∧ (∀ k : Fin 8, r.r[k] = 0) ∧ r.irqLatch = 0 ∧ r.irqCounter = 0 ∧
        r.irqEnabled = false
      | .namco108 r => r.sel = 0 ∧ ∀ k : Fin 8, r.r[k] = 0
      | .mmc2 r | .mmc4 r => r.prgBank = 0 ∧ r.chrFD0 = 0 ∧ r.chrFE0 = 0 ∧ r.chrFD1 = 0 ∧ r.chrFE1 = 0 ∧
        r.latch0 = .fe ∧ r.latch1 = .fe) ∧
    s.mirroring = (match s.mapper with
      | .axrom _ => .singleLower
      | .mmc1 _ => match Config.mmc1PowerOnMirroring.toNat with
        | 0 => .singleLower
        | 1 => .singleUpper
        | 2 => .vertical
        | _ => .horizontal
      | _ => if s.cart.mirroringBit then .vertical else .horizontal) ∧
    s.Inv ∧ s.Coherent

/-- In a running session that is not cancelled: with owed above 0 a tick only takes 1 off owed; with owed = 0 a step
runs, and where it answers t the state after the tick is t with owed one lower (or still 0), so that a step of
cost c is followed by c - 1 ticks that only count. A session that is faulted or cancelled is left alone. [R541] -/
def Obligations.CpuTickRunsAStepThenCountsDown : Prop :=
  (∀ s : State, s.Active → 0 < s.owed → HostAction.perform .cpuTick s = { s with owed := s.owed - 1 }) ∧
  (∀ s : State, s.Active → s.owed = 0 →
    ∃ t, step s = .next t ∧ HostAction.perform .cpuTick s = { t with owed := t.owed - 1 }) ∧
  (∀ (s : State) (k : Nat), s.Active → k ≤ s.owed →
    Nat.iterate (HostAction.perform .cpuTick) k s = { s with owed := s.owed - k }) ∧
  (∀ s : State, ¬ s.Active → HostAction.perform .cpuTick s = s)

/-- In a running session that is not cancelled TriggerNmi sets the NMI latch and changes nothing else; a second call
changes nothing more; the next step is the NMI entry, whatever else is pending, and leaves the latch clear.
While the latch is set no action of the environment but CpuTick (which may run that step) clears it, and a
CpuTick that only counts down leaves it set; and no instruction writes it at all. In a faulted session
TriggerNmi has no effect. [R471] -/
def Obligations.TriggerNmiSetsTheLatch : Prop :=
  (∀ s : State, s.Active →
    let t : State := { s with nmiPending := true }
    HostAction.perform .triggerNmi s = t ∧ HostAction.perform .triggerNmi t = t ∧
      step t = .next (interrupt .nmi t) ∧ (interrupt .nmi t).nmiPending = false) ∧
  (∀ (s : State) (h : HostAction), s.nmiPending = true → h ≠ .cpuTick ∨ 0 < s.owed →
    (h.perform s).nmiPending = true) ∧
  (∀ (i : Instr) (s t : State), exec i s = .next t → t.nmiPending = s.nmiPending) ∧
  (∀ (s : State) (e : FaultRecord), s.status = .faulted e → HostAction.perform .triggerNmi s = s)
end

