-- ==== Sys2Proof/Laws/State.lean ====
section
/-!
SUPPORT. One lemma per field per named update of the state, each true by `rfl`, so that no proof unfolds an
update.
-/
namespace Sys2Proof.Machine

/-! ### The flags -/

@[simp] theorem Flags.setZN_c (f : Flags) (v : Byte) : (f.setZN v).c = f.c := rfl
@[simp] theorem Flags.setZN_z (f : Flags) (v : Byte) : (f.setZN v).z = (v == 0) := rfl
@[simp] theorem Flags.setZN_i (f : Flags) (v : Byte) : (f.setZN v).i = f.i := rfl
@[simp] theorem Flags.setZN_d (f : Flags) (v : Byte) : (f.setZN v).d = f.d := rfl
@[simp] theorem Flags.setZN_b (f : Flags) (v : Byte) : (f.setZN v).b = f.b := rfl
@[simp] theorem Flags.setZN_v (f : Flags) (v : Byte) : (f.setZN v).v = f.v := rfl
@[simp] theorem Flags.setZN_n (f : Flags) (v : Byte) : (f.setZN v).n = v.getLsbD 7 := rfl

/-! ### `setZN` -/

@[simp] theorem setZN_a (v : Byte) (s : State) : (setZN v s).a = s.a := rfl
@[simp] theorem setZN_x (v : Byte) (s : State) : (setZN v s).x = s.x := rfl
@[simp] theorem setZN_y (v : Byte) (s : State) : (setZN v s).y = s.y := rfl
@[simp] theorem setZN_sp (v : Byte) (s : State) : (setZN v s).sp = s.sp := rfl
@[simp] theorem setZN_pc (v : Byte) (s : State) : (setZN v s).pc = s.pc := rfl
@[simp] theorem setZN_flags (v : Byte) (s : State) : (setZN v s).flags = s.flags.setZN v := rfl
@[simp] theorem setZN_scratch (v : Byte) (s : State) : (setZN v s).scratch = s.scratch := rfl
@[simp] theorem setZN_nmiPending (v : Byte) (s : State) : (setZN v s).nmiPending = s.nmiPending := rfl
@[simp] theorem setZN_irqPending (v : Byte) (s : State) : (setZN v s).irqPending = s.irqPending := rfl
@[simp] theorem setZN_owed (v : Byte) (s : State) : (setZN v s).owed = s.owed := rfl
@[simp] theorem setZN_status (v : Byte) (s : State) : (setZN v s).status = s.status := rfl
@[simp] theorem setZN_cancelled (v : Byte) (s : State) : (setZN v s).cancelled = s.cancelled := rfl
@[simp] theorem setZN_ram (v : Byte) (s : State) : (setZN v s).ram = s.ram := rfl
@[simp] theorem setZN_vram (v : Byte) (s : State) : (setZN v s).vram = s.vram := rfl
@[simp] theorem setZN_prgRam (v : Byte) (s : State) : (setZN v s).prgRam = s.prgRam := rfl
@[simp] theorem setZN_chrRam (v : Byte) (s : State) : (setZN v s).chrRam = s.chrRam := rfl
@[simp] theorem setZN_cart (v : Byte) (s : State) : (setZN v s).cart = s.cart := rfl
@[simp] theorem setZN_mapper (v : Byte) (s : State) : (setZN v s).mapper = s.mapper := rfl
@[simp] theorem setZN_prgWin (v : Byte) (s : State) : (setZN v s).prgWin = s.prgWin := rfl
@[simp] theorem setZN_chrWin (v : Byte) (s : State) : (setZN v s).chrWin = s.chrWin := rfl
@[simp] theorem setZN_mirroring (v : Byte) (s : State) : (setZN v s).mirroring = s.mirroring := rfl
@[simp] theorem setZN_bus (v : Byte) (s : State) : (setZN v s).bus = s.bus := rfl
@[simp] theorem setZN_draws (v : Byte) (s : State) : (setZN v s).draws = s.draws := rfl

/-! ### `setA` -/

@[simp] theorem setA_a (v : Byte) (s : State) : (setA v s).a = v := rfl
@[simp] theorem setA_x (v : Byte) (s : State) : (setA v s).x = s.x := rfl
@[simp] theorem setA_y (v : Byte) (s : State) : (setA v s).y = s.y := rfl
@[simp] theorem setA_sp (v : Byte) (s : State) : (setA v s).sp = s.sp := rfl
@[simp] theorem setA_pc (v : Byte) (s : State) : (setA v s).pc = s.pc := rfl
@[simp] theorem setA_flags (v : Byte) (s : State) : (setA v s).flags = s.flags.setZN v := rfl
@[simp] theorem setA_scratch (v : Byte) (s : State) : (setA v s).scratch = s.scratch := rfl
@[simp] theorem setA_nmiPending (v : Byte) (s : State) : (setA v s).nmiPending = s.nmiPending := rfl
@[simp] theorem setA_irqPending (v : Byte) (s : State) : (setA v s).irqPending = s.irqPending := rfl
@[simp] theorem setA_owed (v : Byte) (s : State) : (setA v s).owed = s.owed := rfl
@[simp] theorem setA_status (v : Byte) (s : State) : (setA v s).status = s.status := rfl
@[simp] theorem setA_cancelled (v : Byte) (s : State) : (setA v s).cancelled = s.cancelled := rfl
@[simp] theorem setA_ram (v : Byte) (s : State) : (setA v s).ram = s.ram := rfl
@[simp] theorem setA_vram (v : Byte) (s : State) : (setA v s).vram = s.vram := rfl
@[simp] theorem setA_prgRam (v : Byte) (s : State) : (setA v s).prgRam = s.prgRam := rfl
@[simp] theorem setA_chrRam (v : Byte) (s : State) : (setA v s).chrRam = s.chrRam := rfl
@[simp] theorem setA_cart (v : Byte) (s : State) : (setA v s).cart = s.cart := rfl
@[simp] theorem setA_mapper (v : Byte) (s : State) : (setA v s).mapper = s.mapper := rfl
@[simp] theorem setA_prgWin (v : Byte) (s : State) : (setA v s).prgWin = s.prgWin := rfl
@[simp] theorem setA_chrWin (v : Byte) (s : State) : (setA v s).chrWin = s.chrWin := rfl
@[simp] theorem setA_mirroring (v : Byte) (s : State) : (setA v s).mirroring = s.mirroring := rfl
@[simp] theorem setA_bus (v : Byte) (s : State) : (setA v s).bus = s.bus := rfl
@[simp] theorem setA_draws (v : Byte) (s : State) : (setA v s).draws = s.draws := rfl

/-! ### `setX` -/

@[simp] theorem setX_a (v : Byte) (s : State) : (setX v s).a = s.a := rfl
@[simp] theorem setX_x (v : Byte) (s : State) : (setX v s).x = v := rfl
@[simp] theorem setX_y (v : Byte) (s : State) : (setX v s).y = s.y := rfl
@[simp] theorem setX_sp (v : Byte) (s : State) : (setX v s).sp = s.sp := rfl
@[simp] theorem setX_pc (v : Byte) (s : State) : (setX v s).pc = s.pc := rfl
@[simp] theorem setX_flags (v : Byte) (s : State) : (setX v s).flags = s.flags.setZN v := rfl
@[simp] theorem setX_scratch (v : Byte) (s : State) : (setX v s).scratch = s.scratch := rfl
@[simp] theorem setX_nmiPending (v : Byte) (s : State) : (setX v s).nmiPending = s.nmiPending := rfl
@[simp] theorem setX_irqPending (v : Byte) (s : State) : (setX v s).irqPending = s.irqPending := rfl
@[simp] theorem setX_owed (v : Byte) (s : State) : (setX v s).owed = s.owed := rfl
@[simp] theorem setX_status (v : Byte) (s : State) : (setX v s).status = s.status := rfl
@[simp] theorem setX_cancelled (v : Byte) (s : State) : (setX v s).cancelled = s.cancelled := rfl
@[simp] theorem setX_ram (v : Byte) (s : State) : (setX v s).ram = s.ram := rfl
@[simp] theorem setX_vram (v : Byte) (s : State) : (setX v s).vram = s.vram := rfl
@[simp] theorem setX_prgRam (v : Byte) (s : State) : (setX v s).prgRam = s.prgRam := rfl
@[simp] theorem setX_chrRam (v : Byte) (s : State) : (setX v s).chrRam = s.chrRam := rfl
@[simp] theorem setX_cart (v : Byte) (s : State) : (setX v s).cart = s.cart := rfl
@[simp] theorem setX_mapper (v : Byte) (s : State) : (setX v s).mapper = s.mapper := rfl
@[simp] theorem setX_prgWin (v : Byte) (s : State) : (setX v s).prgWin = s.prgWin := rfl
@[simp] theorem setX_chrWin (v : Byte) (s : State) : (setX v s).chrWin = s.chrWin := rfl
@[simp] theorem setX_mirroring (v : Byte) (s : State) : (setX v s).mirroring = s.mirroring := rfl
@[simp] theorem setX_bus (v : Byte) (s : State) : (setX v s).bus = s.bus := rfl
@[simp] theorem setX_draws (v : Byte) (s : State) : (setX v s).draws = s.draws := rfl

/-! ### `setY` -/

@[simp] theorem setY_a (v : Byte) (s : State) : (setY v s).a = s.a := rfl
@[simp] theorem setY_x (v : Byte) (s : State) : (setY v s).x = s.x := rfl
@[simp] theorem setY_y (v : Byte) (s : State) : (setY v s).y = v := rfl
@[simp] theorem setY_sp (v : Byte) (s : State) : (setY v s).sp = s.sp := rfl
@[simp] theorem setY_pc (v : Byte) (s : State) : (setY v s).pc = s.pc := rfl
@[simp] theorem setY_flags (v : Byte) (s : State) : (setY v s).flags = s.flags.setZN v := rfl
@[simp] theorem setY_scratch (v : Byte) (s : State) : (setY v s).scratch = s.scratch := rfl
@[simp] theorem setY_nmiPending (v : Byte) (s : State) : (setY v s).nmiPending = s.nmiPending := rfl
@[simp] theorem setY_irqPending (v : Byte) (s : State) : (setY v s).irqPending = s.irqPending := rfl
@[simp] theorem setY_owed (v : Byte) (s : State) : (setY v s).owed = s.owed := rfl
@[simp] theorem setY_status (v : Byte) (s : State) : (setY v s).status = s.status := rfl
@[simp] theorem setY_cancelled (v : Byte) (s : State) : (setY v s).cancelled = s.cancelled := rfl
@[simp] theorem setY_ram (v : Byte) (s : State) : (setY v s).ram = s.ram := rfl
@[simp] theorem setY_vram (v : Byte) (s : State) : (setY v s).vram = s.vram := rfl
@[simp] theorem setY_prgRam (v : Byte) (s : State) : (setY v s).prgRam = s.prgRam := rfl
@[simp] theorem setY_chrRam (v : Byte) (s : State) : (setY v s).chrRam = s.chrRam := rfl
@[simp] theorem setY_cart (v : Byte) (s : State) : (setY v s).cart = s.cart := rfl
@[simp] theorem setY_mapper (v : Byte) (s : State) : (setY v s).mapper = s.mapper := rfl
@[simp] theorem setY_prgWin (v : Byte) (s : State) : (setY v s).prgWin = s.prgWin := rfl
@[simp] theorem setY_chrWin (v : Byte) (s : State) : (setY v s).chrWin = s.chrWin := rfl
@[simp] theorem setY_mirroring (v : Byte) (s : State) : (setY v s).mirroring = s.mirroring := rfl
@[simp] theorem setY_bus (v : Byte) (s : State) : (setY v s).bus = s.bus := rfl
@[simp] theorem setY_draws (v : Byte) (s : State) : (setY v s).draws = s.draws := rfl

/-! ### `setC` -/

@[simp] theorem setC_a (b : Bool) (s : State) : (setC b s).a = s.a := rfl
@[simp] theorem setC_x (b : Bool) (s : State) : (setC b s).x = s.x := rfl
@[simp] theorem setC_y (b : Bool) (s : State) : (setC b s).y = s.y := rfl
@[simp] theorem setC_sp (b : Bool) (s : State) : (setC b s).sp = s.sp := rfl
@[simp] theorem setC_pc (b : Bool) (s : State) : (setC b s).pc = s.pc := rfl
@[simp] theorem setC_flags (b : Bool) (s : State) : (setC b s).flags = ⟨b, s.flags.z, s.flags.i, s.flags.d, s.flags.b, s.flags.v, s.flags.n⟩ := rfl
@[simp] theorem setC_scratch (b : Bool) (s : State) : (setC b s).scratch = s.scratch := rfl
@[simp] theorem setC_nmiPending (b : Bool) (s : State) : (setC b s).nmiPending = s.nmiPending := rfl
@[simp] theorem setC_irqPending (b : Bool) (s : State) : (setC b s).irqPending = s.irqPending := rfl
@[simp] theorem setC_owed (b : Bool) (s : State) : (setC b s).owed = s.owed := rfl
@[simp] theorem setC_status (b : Bool) (s : State) : (setC b s).status = s.status := rfl
@[simp] theorem setC_cancelled (b : Bool) (s : State) : (setC b s).cancelled = s.cancelled := rfl
@[simp] theorem setC_ram (b : Bool) (s : State) : (setC b s).ram = s.ram := rfl
@[simp] theorem setC_vram (b : Bool) (s : State) : (setC b s).vram = s.vram := rfl
@[simp] theorem setC_prgRam (b : Bool) (s : State) : (setC b s).prgRam = s.prgRam := rfl
@[simp] theorem setC_chrRam (b : Bool) (s : State) : (setC b s).chrRam = s.chrRam := rfl
@[simp] theorem setC_cart (b : Bool) (s : State) : (setC b s).cart = s.cart := rfl
@[simp] theorem setC_mapper (b : Bool) (s : State) : (setC b s).mapper = s.mapper := rfl
@[simp] theorem setC_prgWin (b : Bool) (s : State) : (setC b s).prgWin = s.prgWin := rfl
@[simp] theorem setC_chrWin (b : Bool) (s : State) : (setC b s).chrWin = s.chrWin := rfl
@[simp] theorem setC_mirroring (b : Bool) (s : State) : (setC b s).mirroring = s.mirroring := rfl
@[simp] theorem setC_bus (b : Bool) (s : State) : (setC b s).bus = s.bus := rfl
@[simp] theorem setC_draws (b : Bool) (s : State) : (setC b s).draws = s.draws := rfl

/-! ### `recordRead` -/

@[simp] theorem recordRead_a (a : Word) (v : Byte) (s : State) : (recordRead a v s).a = s.a := rfl
@[simp] theorem recordRead_x (a : Word) (v : Byte) (s : State) : (recordRead a v s).x = s.x := rfl
@[simp] theorem recordRead_y (a : Word) (v : Byte) (s : State) : (recordRead a v s).y = s.y := rfl
@[simp] theorem recordRead_sp (a : Word) (v : Byte) (s : State) : (recordRead a v s).sp = s.sp := rfl
@[simp] theorem recordRead_pc (a : Word) (v : Byte) (s : State) : (recordRead a v s).pc = s.pc := rfl
@[simp] theorem recordRead_flags (a : Word) (v : Byte) (s : State) : (recordRead a v s).flags = s.flags := rfl
@[simp] theorem recordRead_scratch (a : Word) (v : Byte) (s : State) : (recordRead a v s).scratch = s.scratch := rfl
@[simp] theorem recordRead_nmiPending (a : Word) (v : Byte) (s : State) : (recordRead a v s).nmiPending = s.nmiPending := rfl
@[simp] theorem recordRead_irqPending (a : Word) (v : Byte) (s : State) : (recordRead a v s).irqPending = s.irqPending := rfl
@[simp] theorem recordRead_owed (a : Word) (v : Byte) (s : State) : (recordRead a v s).owed = s.owed := rfl
@[simp] theorem recordRead_status (a : Word) (v : Byte) (s : State) : (recordRead a v s).status = s.status := rfl
@[simp] theorem recordRead_cancelled (a : Word) (v : Byte) (s : State) : (recordRead a v s).cancelled = s.cancelled := rfl
@[simp] theorem recordRead_ram (a : Word) (v : Byte) (s : State) : (recordRead a v s).ram = s.ram := rfl
@[simp] theorem recordRead_vram (a : Word) (v : Byte) (s : State) : (recordRead a v s).vram = s.vram := rfl
@[simp] theorem recordRead_prgRam (a : Word) (v : Byte) (s : State) : (recordRead a v s).prgRam = s.prgRam := rfl
@[simp] theorem recordRead_chrRam (a : Word) (v : Byte) (s : State) : (recordRead a v s).chrRam = s.chrRam := rfl
@[simp] theorem recordRead_cart (a : Word) (v : Byte) (s : State) : (recordRead a v s).cart = s.cart := rfl
@[simp] theorem recordRead_mapper (a : Word) (v : Byte) (s : State) : (recordRead a v s).mapper = s.mapper := rfl
@[simp] theorem recordRead_prgWin (a : Word) (v : Byte) (s : State) : (recordRead a v s).prgWin = s.prgWin := rfl
@[simp] theorem recordRead_chrWin (a : Word) (v : Byte) (s : State) : (recordRead a v s).chrWin = s.chrWin := rfl
@[simp] theorem recordRead_mirroring (a : Word) (v : Byte) (s : State) : (recordRead a v s).mirroring = s.mirroring := rfl
@[simp] theorem recordRead_bus (a : Word) (v : Byte) (s : State) : (recordRead a v s).bus = .read a v :: s.bus := rfl
@[simp] theorem recordRead_draws (a : Word) (v : Byte) (s : State) : (recordRead a v s).draws = s.draws + bit (oracleAddr a) := rfl

/-! ### `setPrgWin` -/

@[simp] theorem setPrgWin_a (w : Fin 4) (off : Nat) (s : State) : (setPrgWin w off s).a = s.a := rfl
@[simp] theorem setPrgWin_x (w : Fin 4) (off : Nat) (s : State) : (setPrgWin w off s).x = s.x := rfl
@[simp] theorem setPrgWin_y (w : Fin 4) (off : Nat) (s : State) : (setPrgWin w off s).y = s.y := rfl
@[simp] theorem setPrgWin_sp (w : Fin 4) (off : Nat) (s : State) : (setPrgWin w off s).sp = s.sp := rfl
@[simp] theorem setPrgWin_pc (w : Fin 4) (off : Nat) (s : State) : (setPrgWin w off s).pc = s.pc := rfl
@[simp] theorem setPrgWin_flags (w : Fin 4) (off : Nat) (s : State) : (setPrgWin w off s).flags = s.flags := rfl
@[simp] theorem setPrgWin_scratch (w : Fin 4) (off : Nat) (s : State) : (setPrgWin w off s).scratch = s.scratch := rfl
@[simp] theorem setPrgWin_nmiPending (w : Fin 4) (off : Nat) (s : State) : (setPrgWin w off s).nmiPending = s.nmiPending := rfl
@[simp] theorem setPrgWin_irqPending (w : Fin 4) (off : Nat) (s : State) : (setPrgWin w off s).irqPending = s.irqPending := rfl
@[simp] theorem setPrgWin_owed (w : Fin 4) (off : Nat) (s : State) : (setPrgWin w off s).owed = s.owed := rfl
@[simp] theorem setPrgWin_status (w : Fin 4) (off : Nat) (s : State) : (setPrgWin w off s).status = s.status := rfl
@[simp] theorem setPrgWin_cancelled (w : Fin 4) (off : Nat) (s : State) : (setPrgWin w off s).cancelled = s.cancelled := rfl
@[simp] theorem setPrgWin_ram (w : Fin 4) (off : Nat) (s : State) : (setPrgWin w off s).ram = s.ram := rfl
@[simp] theorem setPrgWin_vram (w : Fin 4) (off : Nat) (s : State) : (setPrgWin w off s).vram = s.vram := rfl
@[simp] theorem setPrgWin_prgRam (w : Fin 4) (off : Nat) (s : State) : (setPrgWin w off s).prgRam = s.prgRam := rfl
@[simp] theorem setPrgWin_chrRam (w : Fin 4) (off : Nat) (s : State) : (setPrgWin w off s).chrRam = s.chrRam := rfl
@[simp] theorem setPrgWin_cart (w : Fin 4) (off : Nat) (s : State) : (setPrgWin w off s).cart = s.cart := rfl
@[simp] theorem setPrgWin_mapper (w : Fin 4) (off : Nat) (s : State) : (setPrgWin w off s).mapper = s.mapper := rfl
@[simp] theorem setPrgWin_prgWin (w : Fin 4) (off : Nat) (s : State) : (setPrgWin w off s).prgWin = s.prgWin.set w off := rfl
@[simp] theorem setPrgWin_chrWin (w : Fin 4) (off : Nat) (s : State) : (setPrgWin w off s).chrWin = s.chrWin := rfl
@[simp] theorem setPrgWin_mirroring (w : Fin 4) (off : Nat) (s : State) : (setPrgWin w off s).mirroring = s.mirroring := rfl
@[simp] theorem setPrgWin_bus (w : Fin 4) (off : Nat) (s : State) : (setPrgWin w off s).bus = s.bus := rfl
@[simp] theorem setPrgWin_draws (w : Fin 4) (off : Nat) (s : State) : (setPrgWin w off s).draws = s.draws := rfl

/-! ### `setChrWin` -/

@[simp] theorem setChrWin_a (w : Fin 8) (off : Nat) (s : State) : (setChrWin w off s).a = s.a := rfl
@[simp] theorem setChrWin_x (w : Fin 8) (off : Nat) (s : State) : (setChrWin w off s).x = s.x := rfl
@[simp] theorem setChrWin_y (w : Fin 8) (off : Nat) (s : State) : (setChrWin w off s).y = s.y := rfl
@[simp] theorem setChrWin_sp (w : Fin 8) (off : Nat) (s : State) : (setChrWin w off s).sp = s.sp := rfl
@[simp] theorem setChrWin_pc (w : Fin 8) (off : Nat) (s : State) : (setChrWin w off s).pc = s.pc := rfl
@[simp] theorem setChrWin_flags (w : Fin 8) (off : Nat) (s : State) : (setChrWin w off s).flags = s.flags := rfl
@[simp] theorem setChrWin_scratch (w : Fin 8) (off : Nat) (s : State) : (setChrWin w off s).scratch = s.scratch := rfl
@[simp] theorem setChrWin_nmiPending (w : Fin 8) (off : Nat) (s : State) : (setChrWin w off s).nmiPending = s.nmiPending := rfl
@[simp] theorem setChrWin_irqPending (w : Fin 8) (off : Nat) (s : State) : (setChrWin w off s).irqPending = s.irqPending := rfl
@[simp] theorem setChrWin_owed (w : Fin 8) (off : Nat) (s : State) : (setChrWin w off s).owed = s.owed := rfl
@[simp] theorem setChrWin_status (w : Fin 8) (off : Nat) (s : State) : (setChrWin w off s).status = s.status := rfl
@[simp] theorem setChrWin_cancelled (w : Fin 8) (off : Nat) (s : State) : (setChrWin w off s).cancelled = s.cancelled := rfl
@[simp] theorem setChrWin_ram (w : Fin 8) (off : Nat) (s : State) : (setChrWin w off s).ram = s.ram := rfl
@[simp] theorem setChrWin_vram (w : Fin 8) (off : Nat) (s : State) : (setChrWin w off s).vram = s.vram := rfl
@[simp] theorem setChrWin_prgRam (w : Fin 8) (off : Nat) (s : State) : (setChrWin w off s).prgRam = s.prgRam := rfl
@[simp] theorem setChrWin_chrRam (w : Fin 8) (off : Nat) (s : State) : (setChrWin w off s).chrRam = s.chrRam := rfl
@[simp] theorem setChrWin_cart (w : Fin 8) (off : Nat) (s : State) : (setChrWin w off s).cart = s.cart := rfl
@[simp] theorem setChrWin_mapper (w : Fin 8) (off : Nat) (s : State) : (setChrWin w off s).mapper = s.mapper := rfl
@[simp] theorem setChrWin_prgWin (w : Fin 8) (off : Nat) (s : State) : (setChrWin w off s).prgWin = s.prgWin := rfl
@[simp] theorem setChrWin_chrWin (w : Fin 8) (off : Nat) (s : State) : (setChrWin w off s).chrWin = s.chrWin.set w off := rfl
@[simp] theorem setChrWin_mirroring (w : Fin 8) (off : Nat) (s : State) : (setChrWin w off s).mirroring = s.mirroring := rfl
@[simp] theorem setChrWin_bus (w : Fin 8) (off : Nat) (s : State) : (setChrWin w off s).bus = s.bus := rfl
@[simp] theorem setChrWin_draws (w : Fin 8) (off : Nat) (s : State) : (setChrWin w off s).draws = s.draws := rfl

/-! ### `raiseUnsupported` -/

@[simp] theorem raiseUnsupported_a (op : Byte) (s : State) : (raiseUnsupported op s).a = s.a := rfl
@[simp] theorem raiseUnsupported_x (op : Byte) (s : State) : (raiseUnsupported op s).x = s.x := rfl
@[simp] theorem raiseUnsupported_y (op : Byte) (s : State) : (raiseUnsupported op s).y = s.y := rfl
@[simp] theorem raiseUnsupported_sp (op : Byte) (s : State) : (raiseUnsupported op s).sp = s.sp := rfl
@[simp] theorem raiseUnsupported_pc (op : Byte) (s : State) : (raiseUnsupported op s).pc = s.pc - 1 := rfl
@[simp] theorem raiseUnsupported_flags (op : Byte) (s : State) : (raiseUnsupported op s).flags = s.flags := rfl
@[simp] theorem raiseUnsupported_scratch (op : Byte) (s : State) : (raiseUnsupported op s).scratch = s.scratch := rfl
@[simp] theorem raiseUnsupported_nmiPending (op : Byte) (s : State) : (raiseUnsupported op s).nmiPending = s.nmiPending := rfl
@[simp] theorem raiseUnsupported_irqPending (op : Byte) (s : State) : (raiseUnsupported op s).irqPending = s.irqPending := rfl
@[simp] theorem raiseUnsupported_owed (op : Byte) (s : State) : (raiseUnsupported op s).owed = s.owed := rfl
@[simp] theorem raiseUnsupported_status (op : Byte) (s : State) : (raiseUnsupported op s).status = .faulted (.unsupportedOpcode op (s.pc - 1)) := rfl
@[simp] theorem raiseUnsupported_cancelled (op : Byte) (s : State) : (raiseUnsupported op s).cancelled = s.cancelled := rfl
@[simp] theorem raiseUnsupported_ram (op : Byte) (s : State) : (raiseUnsupported op s).ram = s.ram := rfl
@[simp] theorem raiseUnsupported_vram (op : Byte) (s : State) : (raiseUnsupported op s).vram = s.vram := rfl
@[simp] theorem raiseUnsupported_prgRam (op : Byte) (s : State) : (raiseUnsupported op s).prgRam = s.prgRam := rfl
@[simp] theorem raiseUnsupported_chrRam (op : Byte) (s : State) : (raiseUnsupported op s).chrRam = s.chrRam := rfl
@[simp] theorem raiseUnsupported_cart (op : Byte) (s : State) : (raiseUnsupported op s).cart = s.cart := rfl
@[simp] theorem raiseUnsupported_mapper (op : Byte) (s : State) : (raiseUnsupported op s).mapper = s.mapper := rfl
@[simp] theorem raiseUnsupported_prgWin (op : Byte) (s : State) : (raiseUnsupported op s).prgWin = s.prgWin := rfl
@[simp] theorem raiseUnsupported_chrWin (op : Byte) (s : State) : (raiseUnsupported op s).chrWin = s.chrWin := rfl
@[simp] theorem raiseUnsupported_mirroring (op : Byte) (s : State) : (raiseUnsupported op s).mirroring = s.mirroring := rfl
@[simp] theorem raiseUnsupported_bus (op : Byte) (s : State) : (raiseUnsupported op s).bus = s.bus := rfl
@[simp] theorem raiseUnsupported_draws (op : Byte) (s : State) : (raiseUnsupported op s).draws = s.draws := rfl

/-! ### `compare` -/

@[simp] theorem compare_a (r m : Byte) (s : State) : (compare r m s).a = s.a := rfl
@[simp] theorem compare_x (r m : Byte) (s : State) : (compare r m s).x = s.x := rfl
@[simp] theorem compare_y (r m : Byte) (s : State) : (compare r m s).y = s.y := rfl
@[simp] theorem compare_sp (r m : Byte) (s : State) : (compare r m s).sp = s.sp := rfl
@[simp] theorem compare_pc (r m : Byte) (s : State) : (compare r m s).pc = s.pc := rfl
@[simp] theorem compare_scratch (r m : Byte) (s : State) : (compare r m s).scratch = s.scratch := rfl
@[simp] theorem compare_nmiPending (r m : Byte) (s : State) : (compare r m s).nmiPending = s.nmiPending := rfl
@[simp] theorem compare_irqPending (r m : Byte) (s : State) : (compare r m s).irqPending = s.irqPending := rfl
@[simp] theorem compare_owed (r m : Byte) (s : State) : (compare r m s).owed = s.owed := rfl
@[simp] theorem compare_status (r m : Byte) (s : State) : (compare r m s).status = s.status := rfl
@[simp] theorem compare_cancelled (r m : Byte) (s : State) : (compare r m s).cancelled = s.cancelled := rfl
@[simp] theorem compare_ram (r m : Byte) (s : State) : (compare r m s).ram = s.ram := rfl
@[simp] theorem compare_vram (r m : Byte) (s : State) : (compare r m s).vram = s.vram := rfl
@[simp] theorem compare_prgRam (r m : Byte) (s : State) : (compare r m s).prgRam = s.prgRam := rfl
@[simp] theorem compare_chrRam (r m : Byte) (s : State) : (compare r m s).chrRam = s.chrRam := rfl
@[simp] theorem compare_cart (r m : Byte) (s : State) : (compare r m s).cart = s.cart := rfl
@[simp] theorem compare_mapper (r m : Byte) (s : State) : (compare r m s).mapper = s.mapper := rfl
@[simp] theorem compare_prgWin (r m : Byte) (s : State) : (compare r m s).prgWin = s.prgWin := rfl
@[simp] theorem compare_chrWin (r m : Byte) (s : State) : (compare r m s).chrWin = s.chrWin := rfl
@[simp] theorem compare_mirroring (r m : Byte) (s : State) : (compare r m s).mirroring = s.mirroring := rfl
@[simp] theorem compare_bus (r m : Byte) (s : State) : (compare r m s).bus = s.bus := rfl
@[simp] theorem compare_draws (r m : Byte) (s : State) : (compare r m s).draws = s.draws := rfl

/-! ### `triggerNmi` -/

@[simp] theorem triggerNmi_a (s : State) : (triggerNmi s).a = s.a := rfl
@[simp] theorem triggerNmi_x (s : State) : (triggerNmi s).x = s.x := rfl
@[simp] theorem triggerNmi_y (s : State) : (triggerNmi s).y = s.y := rfl
@[simp] theorem triggerNmi_sp (s : State) : (triggerNmi s).sp = s.sp := rfl
@[simp] theorem triggerNmi_pc (s : State) : (triggerNmi s).pc = s.pc := rfl
@[simp] theorem triggerNmi_flags (s : State) : (triggerNmi s).flags = s.flags := rfl
@[simp] theorem triggerNmi_scratch (s : State) : (triggerNmi s).scratch = s.scratch := rfl
@[simp] theorem triggerNmi_nmiPending (s : State) : (triggerNmi s).nmiPending = true := rfl
@[simp] theorem triggerNmi_irqPending (s : State) : (triggerNmi s).irqPending = s.irqPending := rfl
@[simp] theorem triggerNmi_owed (s : State) : (triggerNmi s).owed = s.owed := rfl
@[simp] theorem triggerNmi_status (s : State) : (triggerNmi s).status = s.status := rfl
@[simp] theorem triggerNmi_cancelled (s : State) : (triggerNmi s).cancelled = s.cancelled := rfl
@[simp] theorem triggerNmi_ram (s : State) : (triggerNmi s).ram = s.ram := rfl
@[simp] theorem triggerNmi_vram (s : State) : (triggerNmi s).vram = s.vram := rfl
@[simp] theorem triggerNmi_prgRam (s : State) : (triggerNmi s).prgRam = s.prgRam := rfl
@[simp] theorem triggerNmi_chrRam (s : State) : (triggerNmi s).chrRam = s.chrRam := rfl
@[simp] theorem triggerNmi_cart (s : State) : (triggerNmi s).cart = s.cart := rfl
@[simp] theorem triggerNmi_mapper (s : State) : (triggerNmi s).mapper = s.mapper := rfl
@[simp] theorem triggerNmi_prgWin (s : State) : (triggerNmi s).prgWin = s.prgWin := rfl
@[simp] theorem triggerNmi_chrWin (s : State) : (triggerNmi s).chrWin = s.chrWin := rfl
@[simp] theorem triggerNmi_mirroring (s : State) : (triggerNmi s).mirroring = s.mirroring := rfl
@[simp] theorem triggerNmi_bus (s : State) : (triggerNmi s).bus = s.bus := rfl
@[simp] theorem triggerNmi_draws (s : State) : (triggerNmi s).draws = s.draws := rfl

/-! ### `countDown` -/

@[simp] theorem countDown_a (s : State) : (countDown s).a = s.a := rfl
@[simp] theorem countDown_x (s : State) : (countDown s).x = s.x := rfl
@[simp] theorem countDown_y (s : State) : (countDown s).y = s.y := rfl
@[simp] theorem countDown_sp (s : State) : (countDown s).sp = s.sp := rfl
@[simp] theorem countDown_pc (s : State) : (countDown s).pc = s.pc := rfl
@[simp] theorem countDown_flags (s : State) : (countDown s).flags = s.flags := rfl
@[simp] theorem countDown_scratch (s : State) : (countDown s).scratch = s.scratch := rfl
@[simp] theorem countDown_nmiPending (s : State) : (countDown s).nmiPending = s.nmiPending := rfl
@[simp] theorem countDown_irqPending (s : State) : (countDown s).irqPending = s.irqPending := rfl
@[simp] theorem countDown_owed (s : State) : (countDown s).owed = s.owed - 1 := rfl
@[simp] theorem countDown_status (s : State) : (countDown s).status = s.status := rfl
@[simp] theorem countDown_cancelled (s : State) : (countDown s).cancelled = s.cancelled := rfl
@[simp] theorem countDown_ram (s : State) : (countDown s).ram = s.ram := rfl
@[simp] theorem countDown_vram (s : State) : (countDown s).vram = s.vram := rfl
@[simp] theorem countDown_prgRam (s : State) : (countDown s).prgRam = s.prgRam := rfl
@[simp] theorem countDown_chrRam (s : State) : (countDown s).chrRam = s.chrRam := rfl
@[simp] theorem countDown_cart (s : State) : (countDown s).cart = s.cart := rfl
@[simp] theorem countDown_mapper (s : State) : (countDown s).mapper = s.mapper := rfl
@[simp] theorem countDown_prgWin (s : State) : (countDown s).prgWin = s.prgWin := rfl
@[simp] theorem countDown_chrWin (s : State) : (countDown s).chrWin = s.chrWin := rfl
@[simp] theorem countDown_mirroring (s : State) : (countDown s).mirroring = s.mirroring := rfl
@[simp] theorem countDown_bus (s : State) : (countDown s).bus = s.bus := rfl
@[simp] theorem countDown_draws (s : State) : (countDown s).draws = s.draws := rfl

/-! ### `cancel` -/

@[simp] theorem cancel_a (s : State) : (cancel s).a = s.a := rfl
@[simp] theorem cancel_x (s : State) : (cancel s).x = s.x := rfl
@[simp] theorem cancel_y (s : State) : (cancel s).y = s.y := rfl
@[simp] theorem cancel_sp (s : State) : (cancel s).sp = s.sp := rfl
@[simp] theorem cancel_pc (s : State) : (cancel s).pc = s.pc := rfl
@[simp] theorem cancel_flags (s : State) : (cancel s).flags = s.flags := rfl
@[simp] theorem cancel_scratch (s : State) : (cancel s).scratch = s.scratch := rfl
@[simp] theorem cancel_nmiPending (s : State) : (cancel s).nmiPending = s.nmiPending := rfl
@[simp] theorem cancel_irqPending (s : State) : (cancel s).irqPending = s.irqPending := rfl
@[simp] theorem cancel_owed (s : State) : (cancel s).owed = s.owed := rfl
@[simp] theorem cancel_status (s : State) : (cancel s).status = s.status := rfl
@[simp] theorem cancel_cancelled (s : State) : (cancel s).cancelled = true := rfl
@[simp] theorem cancel_ram (s : State) : (cancel s).ram = s.ram := rfl
@[simp] theorem cancel_vram (s : State) : (cancel s).vram = s.vram := rfl
@[simp] theorem cancel_prgRam (s : State) : (cancel s).prgRam = s.prgRam := rfl
@[simp] theorem cancel_chrRam (s : State) : (cancel s).chrRam = s.chrRam := rfl
@[simp] theorem cancel_cart (s : State) : (cancel s).cart = s.cart := rfl
@[simp] theorem cancel_mapper (s : State) : (cancel s).mapper = s.mapper := rfl
@[simp] theorem cancel_prgWin (s : State) : (cancel s).prgWin = s.prgWin := rfl
@[simp] theorem cancel_chrWin (s : State) : (cancel s).chrWin = s.chrWin := rfl
@[simp] theorem cancel_mirroring (s : State) : (cancel s).mirroring = s.mirroring := rfl
@[simp] theorem cancel_bus (s : State) : (cancel s).bus = s.bus := rfl
@[simp] theorem cancel_draws (s : State) : (cancel s).draws = s.draws := rfl

end Sys2Proof.Machine
end

