-- ==== Sys2Proof/Laws/Mapper.lean ====
section
/-!
SUPPORT. What the mapper operations can do: which fields they write, and that every offset they put in a table is
a multiple of the window size below the length of its array.
-/
namespace Sys2Proof.Machine

/-! ### Which fields a bank switch and a register write touch -/

/-- `t` is `s` but for the offset tables. -/
def WindowsOnly (s t : State) : Prop := t = { s with prgWin := t.prgWin, chrWin := t.chrWin }

theorem WindowsOnly.refl (s : State) : WindowsOnly s s := rfl

theorem WindowsOnly.trans {s t u : State} (h : WindowsOnly s t) (h' : WindowsOnly t u) : WindowsOnly s u := by
  unfold WindowsOnly at *; rw [h', h]

/-- `t` is `s` but for the mapper's registers, the offset tables, the mirroring and the IRQ latch. -/
def CartridgeOnly (s t : State) : Prop :=
  t = { s with
    mapper := t.mapper, prgWin := t.prgWin, chrWin := t.chrWin, mirroring := t.mirroring, irqPending := t.irqPending }

theorem CartridgeOnly.refl (s : State) : CartridgeOnly s s := rfl

theorem CartridgeOnly.trans {s t u : State} (h : CartridgeOnly s t) (h' : CartridgeOnly t u) : CartridgeOnly s u := by
  unfold CartridgeOnly at *; rw [h', h]

theorem WindowsOnly.cartridgeOnly {s t : State} (h : WindowsOnly s t) : CartridgeOnly s t := by
  unfold WindowsOnly at h; unfold CartridgeOnly; rw [h]

theorem CartridgeOnly.cart {s t : State} (h : CartridgeOnly s t) : t.cart = s.cart := by rw [h]

theorem setPrgWin_windows (w : Fin 4) (off : Nat) (s : State) : WindowsOnly s (setPrgWin w off s) := rfl
theorem setChrWin_windows (w : Fin 8) (off : Nat) (s : State) : WindowsOnly s (setChrWin w off s) := rfl
theorem prg8_windows (w : Fin 4) (b : Int) (s : State) : WindowsOnly s (prg8 w b s) := rfl
theorem prg16Low_windows (b : Int) (s : State) : WindowsOnly s (prg16Low b s) := rfl
theorem prg16High_windows (b : Int) (s : State) : WindowsOnly s (prg16High b s) := rfl
theorem prg32_windows (b : Int) (s : State) : WindowsOnly s (prg32 b s) := rfl
theorem chr1_windows (w : Fin 8) (b : Int) (s : State) : WindowsOnly s (chr1 w b s) := rfl

/-- Four 1KB windows set one after another. -/
theorem setChrWinFour_windows (w0 w1 w2 w3 : Fin 8) (o0 o1 o2 o3 : Nat) (s : State) :
    WindowsOnly s (setChrWin w3 o3 (setChrWin w2 o2 (setChrWin w1 o1 (setChrWin w0 o0 s)))) :=
  (((setChrWin_windows _ _ _).trans (setChrWin_windows _ _ _)).trans (setChrWin_windows _ _ _)).trans
    (setChrWin_windows _ _ _)

theorem chr4Low_windows (b : Int) (s : State) : WindowsOnly s (chr4Low b s) :=
  setChrWinFour_windows _ _ _ _ _ _ _ _ s
theorem chr4High_windows (b : Int) (s : State) : WindowsOnly s (chr4High b s) :=
  setChrWinFour_windows _ _ _ _ _ _ _ _ s
theorem chr8_windows (b : Int) (s : State) : WindowsOnly s (chr8 b s) := rfl

theorem mmc1Chr_windows (r : Mmc1) (s : State) : WindowsOnly s (mmc1Chr r s) := by
  unfold mmc1Chr
  split
  · exact (chr4Low_windows _ _).trans (chr4High_windows _ _)
  · exact chr8_windows _ _

theorem mmc1Prg_windows (r : Mmc1) (s : State) : WindowsOnly s (mmc1Prg r s) := by
  unfold mmc1Prg
  simp only
  split
  · exact prg32_windows _ _
  · exact (prg16Low_windows _ _).trans (prg16High_windows _ _)
  · exact (prg16Low_windows _ _).trans (prg16High_windows _ _)

theorem mmc1Recompute_windows (r : Mmc1) (s : State) :
    WindowsOnly { s with mirroring := mmc1Mirroring r.control } (mmc1Recompute r s) :=
  (mmc1Chr_windows _ _).trans (mmc1Prg_windows _ _)

theorem mmc1Install_windows (r : Mmc1) (s : State) :
    WindowsOnly { s with mapper := .mmc1 r, mirroring := mmc1Mirroring r.control } (mmc1Install r s) :=
  mmc1Recompute_windows r { s with mapper := .mmc1 r }

theorem mmc1Install_only (r : Mmc1) (s : State) : CartridgeOnly s (mmc1Install r s) :=
  CartridgeOnly.trans (t := { s with mapper := .mmc1 r, mirroring := mmc1Mirroring r.control }) rfl
    (mmc1Install_windows r s).cartridgeOnly

theorem mmc3Prg_windows (r : Mmc3) (s : State) : WindowsOnly s (mmc3Prg r s) := by
  unfold mmc3Prg
  split
  all_goals
    exact (((prg8_windows _ _ _).trans (prg8_windows _ _ _)).trans (prg8_windows _ _ _)).trans (prg8_windows _ _ _)

/-- Eight 1KB windows set one after another. -/
theorem chr1Eight_windows (w0 w1 w2 w3 w4 w5 w6 w7 : Fin 8) (b0 b1 b2 b3 b4 b5 b6 b7 : Int) (s : State) :
    WindowsOnly s (chr1 w7 b7 (chr1 w6 b6 (chr1 w5 b5 (chr1 w4 b4
      (chr1 w3 b3 (chr1 w2 b2 (chr1 w1 b1 (chr1 w0 b0 s)))))))) :=
  (((((((chr1_windows _ _ _).trans (chr1_windows _ _ _)).trans (chr1_windows _ _ _)).trans
    (chr1_windows _ _ _)).trans (chr1_windows _ _ _)).trans (chr1_windows _ _ _)).trans
    (chr1_windows _ _ _)).trans (chr1_windows _ _ _)

theorem mmc3Chr_windows (r : Mmc3) (s : State) : WindowsOnly s (mmc3Chr r s) := by
  unfold mmc3Chr
  split
  · exact chr1Eight_windows _ _ _ _ _ _ _ _ _ _ _ _ _ _ _ _ s
  · exact chr1Eight_windows _ _ _ _ _ _ _ _ _ _ _ _ _ _ _ _ s

theorem mmc3Install_windows (r : Mmc3) (s : State) : WindowsOnly { s with mapper := .mmc3 r } (mmc3Install r s) :=
  (mmc3Prg_windows _ _).trans (mmc3Chr_windows _ _)

theorem mmc3Install_only (r : Mmc3) (s : State) : CartridgeOnly s (mmc3Install r s) :=
  CartridgeOnly.trans (t := { s with mapper := .mmc3 r }) rfl (mmc3Install_windows r s).cartridgeOnly

theorem namco108Recompute_windows (r : Namco108) (s : State) : WindowsOnly s (namco108Recompute r s) :=
  ((((prg8_windows _ _ _).trans (prg8_windows _ _ _)).trans (prg8_windows _ _ _)).trans (prg8_windows _ _ _)).trans
    (chr1Eight_windows _ _ _ _ _ _ _ _ _ _ _ _ _ _ _ _ _)

theorem namco108Install_windows (r : Namco108) (s : State) :
    WindowsOnly { s with mapper := .namco108 r } (namco108Install r s) :=
  namco108Recompute_windows r { s with mapper := .namco108 r }

theorem namco108Install_only (r : Namco108) (s : State) : CartridgeOnly s (namco108Install r s) :=
  CartridgeOnly.trans (t := { s with mapper := .namco108 r }) rfl (namco108Install_windows r s).cartridgeOnly

theorem latchChr_windows (r : LatchMapper) (s : State) : WindowsOnly s (latchChr r s) :=
  (chr4Low_windows _ _).trans (chr4High_windows _ _)

theorem mmc2Install_windows (r : LatchMapper) (s : State) :
    WindowsOnly { s with mapper := .mmc2 r } (mmc2Install r s) :=
  ((((latchChr_windows _ _).trans (prg8_windows _ _ _)).trans (prg8_windows _ _ _)).trans
    (prg8_windows _ _ _)).trans (prg8_windows _ _ _)

theorem mmc2Install_only (r : LatchMapper) (s : State) : CartridgeOnly s (mmc2Install r s) :=
  CartridgeOnly.trans (t := { s with mapper := .mmc2 r }) rfl (mmc2Install_windows r s).cartridgeOnly

theorem mmc4Install_windows (r : LatchMapper) (s : State) :
    WindowsOnly { s with mapper := .mmc4 r } (mmc4Install r s) :=
  ((latchChr_windows _ _).trans (prg16Low_windows _ _)).trans (prg16High_windows _ _)

theorem mmc4Install_only (r : LatchMapper) (s : State) : CartridgeOnly s (mmc4Install r s) :=
  CartridgeOnly.trans (t := { s with mapper := .mmc4 r }) rfl (mmc4Install_windows r s).cartridgeOnly

theorem mmc1Write_only (r : Mmc1) (a : Word) (v : Byte) (s : State) : CartridgeOnly s (mmc1Write r a v s) := by
  unfold mmc1Write
  split
  · exact .refl s
  · simp only
    split
    · exact mmc1Install_only _ _
    · split
      · exact mmc1Install_only _ _
      · exact rfl

theorem mmc3Write_only (r : Mmc3) (a : Word) (v : Byte) (s : State) : CartridgeOnly s (mmc3Write r a v s) := by
  unfold mmc3Write
  split
  · exact mmc3Install_only _ _
  · exact mmc3Install_only _ _
  all_goals exact rfl

theorem namco108Write_only (r : Namco108) (a : Word) (v : Byte) (s : State) :
    CartridgeOnly s (namco108Write r a v s) := by
  unfold namco108Write
  split
  · exact rfl
  · exact namco108Install_only _ _
  · exact rfl

theorem mmc2Write_only (r : LatchMapper) (a : Word) (v : Byte) (s : State) : CartridgeOnly s (mmc2Write r a v s) := by
  unfold mmc2Write
  split
  · exact rfl
  · exact CartridgeOnly.trans (t := { s with mirroring := latchMirroring a v s.mirroring }) rfl (mmc2Install_only _ _)

theorem mmc4Write_only (r : LatchMapper) (a : Word) (v : Byte) (s : State) : CartridgeOnly s (mmc4Write r a v s) := by
  unfold mmc4Write
  split
  · exact rfl
  · exact CartridgeOnly.trans (t := { s with mirroring := latchMirroring a v s.mirroring }) rfl (mmc4Install_only _ _)

/-- A mapper register write touches the mapper's registers, the offset tables, the mirroring and the IRQ latch,
and nothing else (R189). -/
theorem mapperWrite_only (a : Word) (v : Byte) (s : State) : CartridgeOnly s (mapperWrite a v s) := by
  unfold mapperWrite
  split
  · exact rfl
  · exact mmc1Write_only _ _ _ _
  · exact rfl
  · exact rfl
  · exact mmc3Write_only _ _ _ _
  · exact rfl
  · exact mmc2Write_only _ _ _ _
  · exact mmc4Write_only _ _ _ _
  · exact rfl
  · exact rfl
  · split <;> exact rfl
  · exact rfl
  · exact rfl
  · exact namco108Write_only _ _ _ _

/-- A CHR read's side effect touches the same fields (R183). -/
theorem chrReadEffect_only (a : PpuAddr) (s : State) : CartridgeOnly s (chrReadEffect a s) := by
  unfold chrReadEffect
  split
  · split
    · exact rfl
    · exact mmc2Install_only _ _
  · split
    · exact rfl
    · exact mmc4Install_only _ _
  · exact rfl

/-- On a variant without CHR latches it does nothing (R77). -/
theorem chrReadEffect_of_noLatch {s : State} (a : PpuAddr) (h2 : ∀ r, s.mapper ≠ .mmc2 r) (h4 : ∀ r, s.mapper ≠ .mmc4 r) :
    chrReadEffect a s = s := by
  unfold chrReadEffect
  split
  · rename_i r hm; exact absurd hm (h2 r)
  · rename_i r hm; exact absurd hm (h4 r)
  · rfl

/-- The power-on of a variant touches the same fields (R521). -/
theorem mapperPowerOn_only (m : Mapper) (s : State) : CartridgeOnly s (mapperPowerOn m s) := by
  unfold mapperPowerOn
  refine CartridgeOnly.trans (t := { s with mapper := m }) rfl ?_
  cases m
  case mmc1 r => exact mmc1Install_only _ _
  case mmc3 r => exact mmc3Install_only _ _
  case mmc2 r => exact mmc2Install_only _ _
  case mmc4 r => exact mmc4Install_only _ _
  case namco108 r => exact namco108Install_only _ _
  all_goals exact rfl

/-! ### The IRQ latch -/

theorem WindowsOnly.irqPending {s t : State} (h : WindowsOnly s t) : t.irqPending = s.irqPending := by rw [h]

/-- A mapper register write can clear the IRQ latch (R170) and cannot set it (R189). -/
theorem mapperWrite_irqPending (a : Word) (v : Byte) (s : State) (h : (mapperWrite a v s).irqPending = true) :
    s.irqPending = true := by
  revert h
  unfold mapperWrite
  split
  case h_2 r hm =>
    unfold mmc1Write
    split
    · exact id
    · simp only
      split
      · rw [(mmc1Install_windows _ s).irqPending]; exact id
      · split
        · rw [(mmc1Install_windows _ s).irqPending]; exact id
        · exact id
  case h_5 r hm =>
    unfold mmc3Write
    split
    · rw [(mmc3Install_windows _ s).irqPending]; exact id
    · rw [(mmc3Install_windows _ s).irqPending]; exact id
    all_goals first
      | exact id
      | exact fun h => nomatch h
  case h_7 r hm =>
    unfold mmc2Write
    split
    · exact id
    · rw [(mmc2Install_windows _ _).irqPending]; exact id
  case h_8 r hm =>
    unfold mmc4Write
    split
    · exact id
    · rw [(mmc4Install_windows _ _).irqPending]; exact id
  case h_11 r hm => split <;> exact id
  case h_14 r hm =>
    unfold namco108Write
    split
    · exact id
    · rw [(namco108Install_windows _ s).irqPending]; exact id
    · exact id
  all_goals exact id

/-! ### Offsets -/

/-- An offset lies in its array (R123). -/
theorem bankOffset_lt {len : Nat} (unit part : Nat) (b : Int) (h : 0 < len) : bankOffset len unit part b < len := by
  unfold bankOffset
  have h1 := Int.emod_nonneg (b * unit + part) (b := (len : Int)) (by omega)
  have h2 := Int.emod_lt_of_pos (b * unit + part) (b := (len : Int)) (by omega)
  omega

/-- An offset is a multiple of the window size `g` (R123). -/
theorem bankOffset_mod {len unit part g : Nat} (b : Int) (h : 0 < len) (hl : len % g = 0) (hu : unit % g = 0)
    (hp : part % g = 0) : bankOffset len unit part b % g = 0 := by
  obtain ⟨l, rfl⟩ := Nat.dvd_of_mod_eq_zero hl
  obtain ⟨u, rfl⟩ := Nat.dvd_of_mod_eq_zero hu
  obtain ⟨p, rfl⟩ := Nat.dvd_of_mod_eq_zero hp
  apply Nat.mod_eq_zero_of_dvd
  unfold bankOffset
  have hn := Int.emod_nonneg (b * (g * u : Nat) + (g * p : Nat)) (b := ((g * l : Nat) : Int)) (by omega)
  apply Int.natCast_dvd_natCast.mp
  rw [Int.toNat_of_nonneg hn]
  rw [Int.emod_def]
  refine Int.dvd_sub ?_ (Dvd.dvd.mul_right ?_ _)
  · push_cast
    exact ⟨b * u + p, by ring⟩
  · push_cast
    exact Dvd.intro _ rfl

/-! ### The bank switches as tables of numbers -/

/-- The offset of a bank whose number is not negative (R123). -/
theorem bankOffset_natCast (len unit part b : Nat) : bankOffset len unit part (b : Int) = (b * unit + part) % len := by
  unfold bankOffset
  rw [← Int.natCast_mul, ← Int.natCast_add, ← Int.natCast_emod, Int.toNat_natCast]

theorem vector_set_low (w : Vector Nat 4) (a b : Nat) : (w.set 0 a).set 1 b = #v[a, b, w[2], w[3]] := by
  ext i hi
  rcases i with _ | _ | _ | _ | i <;> first | omega | simp

theorem vector_set_high (w : Vector Nat 4) (a b : Nat) : (w.set 2 a).set 3 b = #v[w[0], w[1], a, b] := by
  ext i hi
  rcases i with _ | _ | _ | _ | i <;> first | omega | simp

theorem prg16Low_eq (b : Nat) (s : State) : prg16Low b s = { s with prgWin :=
    #v[b * 0x4000 % s.prgLen, (b * 0x4000 + 0x2000) % s.prgLen, s.prgWin[2], s.prgWin[3]] } := by
  simp only [prg16Low, setPrgWin, bankOffset_natCast, Nat.add_zero]
  congr 1
  exact vector_set_low _ _ _

theorem prg16High_eq (b : Nat) (s : State) : prg16High b s = { s with prgWin :=
    #v[s.prgWin[0], s.prgWin[1], b * 0x4000 % s.prgLen, (b * 0x4000 + 0x2000) % s.prgLen] } := by
  simp only [prg16High, setPrgWin, bankOffset_natCast, Nat.add_zero]
  congr 1
  exact vector_set_high _ _ _

theorem prg32_eq (b : Nat) (s : State) : prg32 b s = { s with prgWin :=
    #v[b * 0x8000 % s.prgLen, (b * 0x8000 + 0x2000) % s.prgLen, (b * 0x8000 + 0x4000) % s.prgLen,
      (b * 0x8000 + 0x6000) % s.prgLen] } := by
  simp only [prg32, bankOffset_natCast, Nat.add_zero]

theorem vector_ofFn_eight (f : Fin 8 → Nat) : Vector.ofFn f = #v[f 0, f 1, f 2, f 3, f 4, f 5, f 6, f 7] := by
  ext i hi
  rcases i with _ | _ | _ | _ | _ | _ | _ | _ | i <;> first | omega | simp

theorem vector_ofFn_four (f : Fin 4 → Nat) : Vector.ofFn f = #v[f 0, f 1, f 2, f 3] := by
  ext i hi
  rcases i with _ | _ | _ | _ | i <;> first | omega | simp

theorem chr8_eq (b : Nat) (s : State) : chr8 b s =
    { s with chrWin := Vector.ofFn fun j => (b * 0x2000 + j.val * 0x400) % s.chrLen } := by
  simp only [chr8, bankOffset_natCast, Nat.add_zero]
  simp only [vector_ofFn_eight]
  simp

theorem vector_set_four (w : Vector Nat 4) (a b c d : Nat) :
    (((w.set 0 a).set 1 b).set 2 c).set 3 d = #v[a, b, c, d] := by
  ext i hi
  rcases i with _ | _ | _ | _ | i <;> first | omega | simp

theorem vector_set_eight (w : Vector Nat 8) (a b c d e f g h : Nat) :
    (((((((w.set 0 a).set 1 b).set 2 c).set 3 d).set 4 e).set 5 f).set 6 g).set 7 h = #v[a, b, c, d, e, f, g, h] := by
  ext i hi
  rcases i with _ | _ | _ | _ | _ | _ | _ | _ | i <;> first | omega | simp

/-- Four 8KB windows (R123). -/
theorem prg8_four (b0 b1 b2 b3 : Int) (s : State) :
    prg8 3 b3 (prg8 2 b2 (prg8 1 b1 (prg8 0 b0 s))) = { s with prgWin :=
      #v[bankOffset s.prgLen 0x2000 0 b0, bankOffset s.prgLen 0x2000 0 b1, bankOffset s.prgLen 0x2000 0 b2,
        bankOffset s.prgLen 0x2000 0 b3] } := by
  simp only [prg8, setPrgWin]
  refine congrArg (fun w => ({ s with prgWin := w } : State)) ?_
  exact vector_set_four _ _ _ _ _

/-- Eight 1KB windows (R123). -/
theorem chr1_eight (b0 b1 b2 b3 b4 b5 b6 b7 : Int) (s : State) :
    chr1 7 b7 (chr1 6 b6 (chr1 5 b5 (chr1 4 b4 (chr1 3 b3 (chr1 2 b2 (chr1 1 b1 (chr1 0 b0 s))))))) = { s with
      chrWin := #v[bankOffset s.chrLen 0x400 0 b0, bankOffset s.chrLen 0x400 0 b1, bankOffset s.chrLen 0x400 0 b2,
        bankOffset s.chrLen 0x400 0 b3, bankOffset s.chrLen 0x400 0 b4, bankOffset s.chrLen 0x400 0 b5,
        bankOffset s.chrLen 0x400 0 b6, bankOffset s.chrLen 0x400 0 b7] } := by
  simp only [chr1, setChrWin]
  refine congrArg (fun w => ({ s with chrWin := w } : State)) ?_
  exact vector_set_eight _ _ _ _ _ _ _ _ _

/-- Both halves of CHR as 4KB banks (R123). -/
theorem chr4_both (b c : Nat) (s : State) : chr4High c (chr4Low b s) = { s with chrWin :=
    #v[b * 0x1000 % s.chrLen, (b * 0x1000 + 0x400) % s.chrLen, (b * 0x1000 + 0x800) % s.chrLen,
      (b * 0x1000 + 0xC00) % s.chrLen, c * 0x1000 % s.chrLen, (c * 0x1000 + 0x400) % s.chrLen,
      (c * 0x1000 + 0x800) % s.chrLen, (c * 0x1000 + 0xC00) % s.chrLen] } := by
  simp only [chr4Low, chr4High, setChrWin, bankOffset_natCast, Nat.add_zero]
  refine congrArg (fun w => ({ s with chrWin := w } : State)) ?_
  exact vector_set_eight _ _ _ _ _ _ _ _ _

/-- Both halves of PRG as 16KB banks (R123). -/
theorem prg16_both (b c : Nat) (s : State) : prg16High c (prg16Low b s) = { s with prgWin :=
    #v[b * 0x4000 % s.prgLen, (b * 0x4000 + 0x2000) % s.prgLen, c * 0x4000 % s.prgLen,
      (c * 0x4000 + 0x2000) % s.prgLen] } := by
  simp only [prg16Low, prg16High, setPrgWin, bankOffset_natCast, Nat.add_zero]
  refine congrArg (fun w => ({ s with prgWin := w } : State)) ?_
  exact vector_set_four _ _ _ _ _

/-- The last 16KB bank of a cartridge with PRG-ROM (R123). -/
theorem last16_eq {s : State} (h : 1 ≤ s.cart.prgUnits) : s.last16 = ((s.cart.prgUnits - 1 : Nat) : Int) := by
  unfold State.last16 State.prgLen
  omega

/-- The last 8KB bank of a cartridge with PRG-ROM (R123). -/
theorem last8_eq {s : State} (h : 1 ≤ s.cart.prgUnits) : s.last8 = ((2 * s.cart.prgUnits - 1 : Nat) : Int) := by
  unfold State.last8 State.prgLen
  omega

end Sys2Proof.Machine
end

