-- ==== Sys2Proof/Laws/Memory.lean ====
section
/-!
SUPPORT. The laws of the byte arrays: reading after writing, and that every operation keeps the canonical form
and the bound on the indexes.
-/
namespace Sys2Proof.Machine

@[simp] theorem Memory.unlisted_eq (k : Nat) : Memory.unlisted k = 0 := rfl

@[simp] theorem Memory.get_nil (k : Nat) : Memory.get [] k = 0 := rfl

theorem Memory.get_cons (j : Nat) (w : Byte) (m : Memory) (k : Nat) :
    Memory.get ((j, w) :: m) k = if j = k then w else Memory.get m k := rfl

theorem Memory.wfFrom_mono {lo hi : Nat} {m : Memory} (h : Memory.wfFrom hi m = true) (hl : lo ≤ hi) :
    Memory.wfFrom lo m = true := by
  cases m with
  | nil => rfl
  | cons c m =>
    simp only [Memory.wfFrom, Bool.and_eq_true, decide_eq_true_eq] at h ⊢
    exact ⟨⟨by omega, h.1.2⟩, h.2⟩

/-- An index below the first allowed one is unlisted. -/
theorem Memory.get_lt {lo k : Nat} {m : Memory} (h : Memory.wfFrom lo m = true) (hk : k < lo) : m.get k = 0 := by
  induction m generalizing lo with
  | nil => rfl
  | cons c m ih =>
    simp only [Memory.wfFrom, Bool.and_eq_true, decide_eq_true_eq] at h
    rw [Memory.get_cons, if_neg (by omega)]
    exact ih h.2 (by omega)

theorem Memory.cell_get (k : Nat) (v : Byte) (m : Memory) (j : Nat) (h : Memory.wfFrom (k + 1) m = true) :
    (Memory.cell k v m).get j = if j = k then v else m.get j := by
  unfold Memory.cell
  split
  · split
    · subst_vars; simp [Memory.get_lt h]
    · rfl
  · rw [Memory.get_cons]
    by_cases hj : j = k
    · subst hj; simp
    · rw [if_neg hj, if_neg (fun e => hj e.symm)]

/-- What a write changes: the byte at its index, and no other. -/
theorem Memory.get_set {lo : Nat} {m : Memory} (h : Memory.wfFrom lo m = true) (k : Nat) (v : Byte) (j : Nat) :
    (m.set k v).get j = if j = k then v else m.get j := by
  induction m generalizing lo with
  | nil => exact Memory.cell_get k v [] j rfl
  | cons c m ih =>
    simp only [Memory.wfFrom, Bool.and_eq_true, decide_eq_true_eq] at h
    obtain ⟨⟨hlo, hv⟩, hm⟩ := h
    simp only [Memory.set]
    split
    · exact Memory.cell_get k v _ j (by simp [Memory.wfFrom, hm, Nat.succ_le_of_lt ‹_›]; simpa using hv)
    · split
      · rename_i hk
        rw [Memory.cell_get k v m j (hk ▸ hm), Memory.get_cons]
        by_cases hj : j = k
        · simp [hj]
        · rw [if_neg hj, if_neg hj, if_neg (by omega)]
      · rw [Memory.get_cons, Memory.get_cons, ih hm]
        by_cases hj : j = k
        · subst hj; rw [if_pos rfl, if_neg (by omega), if_pos rfl]
        · simp [hj]

theorem Memory.get_set_self {m : Memory} (h : m.wf = true) (k : Nat) (v : Byte) : (m.set k v).get k = v := by
  rw [Memory.get_set h, if_pos rfl]

theorem Memory.get_set_of_ne {m : Memory} (h : m.wf = true) {j k : Nat} (v : Byte) (hne : j ≠ k) :
    (m.set k v).get j = m.get j := by
  rw [Memory.get_set h, if_neg hne]

theorem Memory.wfFrom_cell {lo k : Nat} {v : Byte} {m : Memory} (h : Memory.wfFrom (k + 1) m = true) (hk : lo ≤ k) :
    Memory.wfFrom lo (Memory.cell k v m) = true := by
  unfold Memory.cell
  split
  · exact Memory.wfFrom_mono h (by omega)
  · simp only [Memory.wfFrom, Bool.and_eq_true, decide_eq_true_eq, bne_iff_ne]
    exact ⟨⟨hk, ‹_›⟩, h⟩

theorem Memory.wfFrom_set {lo : Nat} {m : Memory} (h : Memory.wfFrom lo m = true) (k : Nat) (v : Byte) :
    Memory.wfFrom (min lo k) (m.set k v) = true := by
  induction m generalizing lo with
  | nil => exact Memory.wfFrom_cell rfl (by omega)
  | cons c m ih =>
    simp only [Memory.wfFrom, Bool.and_eq_true, decide_eq_true_eq] at h
    obtain ⟨⟨hlo, hv⟩, hm⟩ := h
    simp only [Memory.set]
    split
    · refine Memory.wfFrom_cell ?_ (by omega)
      simp only [Memory.wfFrom, Bool.and_eq_true, decide_eq_true_eq]
      exact ⟨⟨by omega, hv⟩, hm⟩
    · split
      · rename_i hk
        exact Memory.wfFrom_cell (hk ▸ hm) (by omega)
      · simp only [Memory.wfFrom, Bool.and_eq_true, decide_eq_true_eq]
        exact ⟨⟨by omega, hv⟩, Memory.wfFrom_mono (ih hm) (by omega)⟩

/-- A write keeps the canonical form. -/
theorem Memory.wf_set {m : Memory} (h : m.wf = true) (k : Nat) (v : Byte) : (m.set k v).wf = true :=
  Memory.wfFrom_mono (Memory.wfFrom_set h k v) (Nat.zero_le _)

theorem Memory.below_cell {n k : Nat} {v : Byte} {m : Memory} (h : m.below n = true) (hk : k < n) :
    (Memory.cell k v m).below n = true := by
  unfold Memory.cell
  split
  · exact h
  · simp only [Memory.below, List.all_cons, Bool.and_eq_true, decide_eq_true_eq]
    exact ⟨hk, h⟩

/-- A write below the bound keeps the bound. -/
theorem Memory.below_set {n k : Nat} {m : Memory} (h : m.below n = true) (hk : k < n) (v : Byte) :
    (m.set k v).below n = true := by
  induction m with
  | nil => exact Memory.below_cell rfl hk
  | cons c m ih =>
    have hc : c.1 < n ∧ Memory.below n m = true := by simpa [Memory.below] using h
    simp only [Memory.set]
    split
    · exact Memory.below_cell h hk
    · split
      · exact Memory.below_cell hc.2 hk
      · simpa [Memory.below] using ⟨hc.1, by simpa [Memory.below] using ih hc.2⟩

theorem Memory.get_of_below {n k : Nat} {m : Memory} (h : m.below n = true) (hk : n ≤ k) : m.get k = 0 := by
  induction m with
  | nil => rfl
  | cons c m ih =>
    have hc : c.1 < n ∧ Memory.below n m = true := by simpa [Memory.below] using h
    rw [Memory.get_cons, if_neg (by omega)]
    exact ih hc.2

/-! ### Arrays from bytes and bytes from arrays -/

theorem Memory.wfFrom_ofBytesFrom (k : Nat) (vs : List Byte) : Memory.wfFrom k (Memory.ofBytesFrom k vs) = true := by
  induction vs generalizing k with
  | nil => rfl
  | cons v vs ih => exact Memory.wfFrom_cell (ih (k + 1)) (Nat.le_refl k)

theorem Memory.wf_ofBytes (vs : List Byte) : (Memory.ofBytes vs).wf = true := Memory.wfFrom_ofBytesFrom 0 vs

theorem Memory.below_mono {n n' : Nat} {m : Memory} (h : m.below n = true) (hn : n ≤ n') : m.below n' = true := by
  simp only [Memory.below, List.all_eq_true, decide_eq_true_eq] at h ⊢
  intro c hc; have := h c hc; omega

theorem Memory.below_ofBytesFrom (k : Nat) (vs : List Byte) :
    (Memory.ofBytesFrom k vs).below (k + vs.length) = true := by
  induction vs generalizing k with
  | nil => rfl
  | cons v vs ih =>
    refine Memory.below_cell ?_ (by simp)
    have := ih (k + 1)
    rwa [List.length_cons, show k + (vs.length + 1) = k + 1 + vs.length by omega]

theorem Memory.below_ofBytes (vs : List Byte) : (Memory.ofBytes vs).below vs.length = true := by
  simpa [Memory.ofBytes] using Memory.below_ofBytesFrom 0 vs

theorem Memory.get_ofBytesFrom (k : Nat) (vs : List Byte) (j : Nat) :
    (Memory.ofBytesFrom k vs).get (k + j) = vs.getD j 0 := by
  induction vs generalizing k j with
  | nil => rfl
  | cons v vs ih =>
    rw [Memory.ofBytesFrom, Memory.cell_get _ _ _ _ (Memory.wfFrom_ofBytesFrom _ _)]
    cases j with
    | zero => simp
    | succ j =>
      rw [if_neg (by omega), show k + (j + 1) = k + 1 + j by omega, ih]
      rfl

/-- Byte `j` of an array made of bytes. -/
theorem Memory.get_ofBytes (vs : List Byte) (j : Nat) : (Memory.ofBytes vs).get j = vs.getD j 0 := by
  simpa [Memory.ofBytes] using Memory.get_ofBytesFrom 0 vs j

theorem Memory.wf_setBytes {m : Memory} (h : m.wf = true) (k : Nat) (vs : List Byte) :
    (m.setBytes k vs).wf = true := by
  induction vs generalizing m k with
  | nil => exact h
  | cons v vs ih => exact ih (Memory.wf_set h k v) (k + 1)

theorem Memory.below_setBytes {m : Memory} {n : Nat} (h : m.below n = true) (k : Nat) (vs : List Byte)
    (hk : k + vs.length ≤ n) : (m.setBytes k vs).below n = true := by
  induction vs generalizing m k with
  | nil => exact h
  | cons v vs ih =>
    simp only [List.length_cons] at hk
    exact ih (Memory.below_set h (by omega) v) (k + 1) (by omega)

/-- What writing a list of bytes changes. -/
theorem Memory.get_setBytes {m : Memory} (h : m.wf = true) (k : Nat) (vs : List Byte) (j : Nat) :
    (m.setBytes k vs).get j = if k ≤ j ∧ j < k + vs.length then vs.getD (j - k) 0 else m.get j := by
  induction vs generalizing m k with
  | nil => simp only [Memory.setBytes, List.length_nil]; rw [if_neg (by omega)]
  | cons v vs ih =>
    rw [Memory.setBytes, ih (Memory.wf_set h k v), Memory.get_set h, List.length_cons]
    by_cases hj : j = k
    · subst hj; rw [if_neg (by omega), if_pos rfl, if_pos (by omega)]; simp
    · by_cases hc : k + 1 ≤ j ∧ j < k + 1 + vs.length
      · rw [if_pos hc, if_pos (by omega), show j - k = (j - (k + 1)) + 1 by omega]; rfl
      · rw [if_neg hc, if_neg hj, if_neg (by omega)]

theorem Memory.toBytes_length (n : Nat) (m : Memory) : (m.toBytes n).length = n := by simp [Memory.toBytes]

theorem Memory.toBytes_getD {n j : Nat} (m : Memory) (h : j < n) : (m.toBytes n).getD j 0 = m.get j := by
  simp [Memory.toBytes, h]

/-! ### Equal memories are equal data -/

theorem Memory.ext_from {lo : Nat} {m m' : Memory} (h : Memory.wfFrom lo m = true) (h' : Memory.wfFrom lo m' = true)
    (heq : ∀ k, m.get k = m'.get k) : m = m' := by
  induction m generalizing lo m' with
  | nil =>
    cases m' with
    | nil => rfl
    | cons c m' =>
      have hk := heq c.1
      simp only [Memory.wfFrom, Bool.and_eq_true, bne_iff_ne] at h'
      rw [Memory.get_cons, if_pos rfl] at hk
      exact absurd hk.symm h'.1.2
  | cons b m ih =>
    cases m' with
    | nil =>
      have hk := heq b.1
      simp only [Memory.wfFrom, Bool.and_eq_true, bne_iff_ne] at h
      rw [Memory.get_cons, if_pos rfl] at hk
      exact absurd hk h.1.2
    | cons c m' =>
      simp only [Memory.wfFrom, Bool.and_eq_true, bne_iff_ne, decide_eq_true_eq] at h h'
      obtain ⟨⟨hlo, hv⟩, hm⟩ := h
      obtain ⟨⟨hlo', hv'⟩, hm'⟩ := h'
      have hb : b.1 = c.1 := by
        rcases Nat.lt_trichotomy b.1 c.1 with hlt | heq' | hgt
        · have hk := heq b.1
          rw [Memory.get_cons, if_pos rfl, Memory.get_cons, if_neg (by omega), Memory.get_lt hm' (by omega)] at hk
          exact absurd hk hv
        · exact heq'
        · have hk := heq c.1
          rw [Memory.get_cons, if_neg (by omega), Memory.get_cons, if_pos rfl, Memory.get_lt hm (by omega)] at hk
          exact absurd hk.symm hv'
      have hw : b.2 = c.2 := by
        have hk := heq b.1
        rwa [Memory.get_cons, if_pos rfl, Memory.get_cons, if_pos hb.symm] at hk
      have ht : m = m' := by
        refine ih hm (hb ▸ hm') fun k => ?_
        have hk := heq k
        rw [Memory.get_cons, Memory.get_cons, hb] at hk
        by_cases hkc : c.1 = k
        · subst hkc
          rw [Memory.get_lt hm (by omega), Memory.get_lt hm' (by omega)]
        · rwa [if_neg hkc, if_neg hkc] at hk
      subst ht
      obtain ⟨b1, b2⟩ := b
      obtain ⟨c1, c2⟩ := c
      simp_all

/-- Two canonical arrays with the same bytes are the same list. -/
theorem Memory.ext {m m' : Memory} (h : m.wf = true) (h' : m'.wf = true) (heq : ∀ k, m.get k = m'.get k) : m = m' :=
  Memory.ext_from h h' heq

end Sys2Proof.Machine
end

