-- ==== Sys2Proof/Laws/Bus.lean ====
section
/-!
SUPPORT. What the bus operations can do: which fields a write touches, that a write does not depend on the CPU's
registers, what a read finds after a write, and the resolver and the operand primitives as bus accesses.
-/
namespace Sys2Proof.Machine

/-! ### Reads -/

@[simp] theorem memRead_fst (a : Word) (s : State) : (memRead a s).1 = s.peek a := rfl
@[simp] theorem memRead_snd (a : Word) (s : State) : (memRead a s).2 = recordRead a (s.peek a) s := rfl

/-- What a CPU read finds depends on the memories, the PRG table and the number of draws. -/
theorem peek_congr {s t : State} (hr : t.ram = s.ram) (hp : t.prgRam = s.prgRam) (hc : t.cart = s.cart)
    (hw : t.prgWin = s.prgWin) (hd : t.draws = s.draws) (a : Word) : t.peek a = s.peek a := by
  simp only [State.peek, State.prgIndex, hr, hp, hc, hw, hd]

/-- Outside the oracle ranges it does not depend on the number of draws. -/
theorem peek_congr_memory {s t : State} (hr : t.ram = s.ram) (hp : t.prgRam = s.prgRam) (hc : t.cart = s.cart)
    (hw : t.prgWin = s.prgWin) {a : Word} (ha : oracleAddr a = false) : t.peek a = s.peek a := by
  simp only [oracleAddr, Bool.and_eq_false_iff, decide_eq_false_iff_not] at ha
  simp only [State.peek, State.prgIndex, hr, hp, hc, hw]
  split
  · rfl
  · split
    · omega
    · split
      · omega
      · rfl

theorem peek_ram {s : State} {a : Word} (h : a.toNat < 0x2000) : s.peek a = s.ram.get (a.toNat % 0x800) := by
  simp [State.peek, h, ramIndex]

theorem peek_open {s : State} {a : Word} (h : 0x4020 ≤ a.toNat) (h' : a.toNat < 0x6000) : s.peek a = 0 := by
  simp only [State.peek]
  rw [if_neg (by omega), if_neg (by omega), if_neg (by omega), if_pos h']

theorem peek_prgRam {s : State} {a : Word} (h : 0x6000 ≤ a.toNat) (h' : a.toNat < 0x8000) :
    s.peek a = s.prgRam.get (a.toNat - 0x6000) := by
  simp only [State.peek]
  rw [if_neg (by omega), if_neg (by omega), if_neg (by omega), if_neg (by omega), if_pos h']

theorem peek_prg {s : State} {a : Word} (h : 0x8000 ≤ a.toNat) : s.peek a = s.cart.prg.get (s.prgIndex a) := by
  simp only [State.peek]
  rw [if_neg (by omega), if_neg (by omega), if_neg (by omega), if_neg (by omega), if_neg (by omega)]

theorem peek_recordRead (a b : Word) (v : Byte) (s : State) (h : oracleAddr b = false) :
    (recordRead b v s).peek a = s.peek a :=
  peek_congr (s := s) (t := recordRead b v s) rfl rfl rfl rfl (by rw [recordRead_draws, h]; rfl) a

/-- A zero-page address is no oracle address. -/
@[simp] theorem oracleAddr_zext (z : Byte) : oracleAddr z.zext = false := by
  have := z.isLt
  simp only [oracleAddr, Byte.zext, BitVec.toNat_setWidth, Bool.and_eq_false_iff, decide_eq_false_iff_not]
  omega

theorem stackAddr_toNat (sp : Byte) : (stackAddr sp).toNat = 0x100 + sp.toNat := by
  have := sp.isLt
  have h256 : (0x100 : Word).toNat = 256 := rfl
  simp only [stackAddr, Byte.zext, BitVec.toNat_add, BitVec.toNat_setWidth, h256]
  omega

/-- A stack address is no oracle address. -/
@[simp] theorem oracleAddr_stackAddr (sp : Byte) : oracleAddr (stackAddr sp) = false := by
  have := sp.isLt
  have := stackAddr_toNat sp
  simp only [oracleAddr, Bool.and_eq_false_iff, decide_eq_false_iff_not]
  omega

/-- An address at 0x8000 or above is no oracle address. -/
theorem oracleAddr_of_high {a : Word} (h : 0x8000 ≤ a.toNat) : oracleAddr a = false := by
  simp only [oracleAddr, Bool.and_eq_false_iff, decide_eq_false_iff_not]
  omega

/-! ### Writes, by range -/

theorem memWrite_ram {a : Word} (v : Byte) (s : State) (h : a.toNat < 0x2000) :
    memWrite a v s = { s with ram := s.ram.set (a.toNat % 0x800) v, bus := .write a v :: s.bus } := by
  simp [memWrite, h, ramIndex]

theorem memWrite_none {a : Word} (v : Byte) (s : State) (h : 0x2000 ≤ a.toNat) (h' : a.toNat < 0x6000) :
    memWrite a v s = { s with bus := .write a v :: s.bus } := by
  simp only [memWrite]
  rw [if_neg (by omega), if_pos h']

theorem memWrite_prgRam {a : Word} (v : Byte) (s : State) (h : 0x6000 ≤ a.toNat) (h' : a.toNat < 0x8000) :
    memWrite a v s = { s with prgRam := s.prgRam.set (a.toNat - 0x6000) v, bus := .write a v :: s.bus } := by
  simp only [memWrite]
  rw [if_neg (by omega), if_neg (by omega), if_pos h']

theorem memWrite_mapper {a : Word} (v : Byte) (s : State) (h : 0x8000 ≤ a.toNat) :
    memWrite a v s = mapperWrite a v { s with bus := .write a v :: s.bus } := by
  simp only [memWrite]
  rw [if_neg (by omega), if_neg (by omega), if_neg (by omega)]

/-- Everything a CPU write can touch. -/
theorem memWrite_only (a : Word) (v : Byte) (s : State) :
    memWrite a v s = { s with
      ram := (memWrite a v s).ram
      prgRam := (memWrite a v s).prgRam
      mapper := (memWrite a v s).mapper
      prgWin := (memWrite a v s).prgWin
      chrWin := (memWrite a v s).chrWin
      mirroring := (memWrite a v s).mirroring
      irqPending := (memWrite a v s).irqPending
      bus := .write a v :: s.bus } := by
  rcases Nat.lt_or_ge a.toNat 0x2000 with h | h
  · rw [memWrite_ram v s h]
  · rcases Nat.lt_or_ge a.toNat 0x6000 with h' | h'
    · rw [memWrite_none v s h h']
    · rcases Nat.lt_or_ge a.toNat 0x8000 with h'' | h''
      · rw [memWrite_prgRam v s h' h'']
      · rw [memWrite_mapper v s h'']
        have := mapperWrite_only a v { s with bus := .write a v :: s.bus }
        unfold CartridgeOnly at this
        have hr := congrArg State.ram this
        have hp := congrArg State.prgRam this
        rw [hr, hp]
        exact this

@[simp] theorem memWrite_a (a : Word) (v : Byte) (s : State) : (memWrite a v s).a = s.a := by rw [memWrite_only]
@[simp] theorem memWrite_x (a : Word) (v : Byte) (s : State) : (memWrite a v s).x = s.x := by rw [memWrite_only]
@[simp] theorem memWrite_y (a : Word) (v : Byte) (s : State) : (memWrite a v s).y = s.y := by rw [memWrite_only]
@[simp] theorem memWrite_sp (a : Word) (v : Byte) (s : State) : (memWrite a v s).sp = s.sp := by rw [memWrite_only]
@[simp] theorem memWrite_pc (a : Word) (v : Byte) (s : State) : (memWrite a v s).pc = s.pc := by rw [memWrite_only]
@[simp] theorem memWrite_flags (a : Word) (v : Byte) (s : State) : (memWrite a v s).flags = s.flags := by rw [memWrite_only]
@[simp] theorem memWrite_scratch (a : Word) (v : Byte) (s : State) : (memWrite a v s).scratch = s.scratch := by rw [memWrite_only]
@[simp] theorem memWrite_nmiPending (a : Word) (v : Byte) (s : State) : (memWrite a v s).nmiPending = s.nmiPending := by rw [memWrite_only]
@[simp] theorem memWrite_owed (a : Word) (v : Byte) (s : State) : (memWrite a v s).owed = s.owed := by rw [memWrite_only]
@[simp] theorem memWrite_status (a : Word) (v : Byte) (s : State) : (memWrite a v s).status = s.status := by rw [memWrite_only]
@[simp] theorem memWrite_cancelled (a : Word) (v : Byte) (s : State) : (memWrite a v s).cancelled = s.cancelled := by rw [memWrite_only]
@[simp] theorem memWrite_vram (a : Word) (v : Byte) (s : State) : (memWrite a v s).vram = s.vram := by rw [memWrite_only]
@[simp] theorem memWrite_chrRam (a : Word) (v : Byte) (s : State) : (memWrite a v s).chrRam = s.chrRam := by rw [memWrite_only]
@[simp] theorem memWrite_cart (a : Word) (v : Byte) (s : State) : (memWrite a v s).cart = s.cart := by rw [memWrite_only]
@[simp] theorem memWrite_draws (a : Word) (v : Byte) (s : State) : (memWrite a v s).draws = s.draws := by rw [memWrite_only]
@[simp] theorem memWrite_bus (a : Word) (v : Byte) (s : State) : (memWrite a v s).bus = .write a v :: s.bus := by
  rw [memWrite_only]

/-- One access more on the record adds its event, if it has one, and no other. -/
theorem events_of_bus {s t : State} {b : BusAccess} (h : t.bus = b :: s.bus) : t.events = s.events ++ b.event?.toList := by
  simp only [State.events, h, List.reverse_cons, List.filterMap_append]
  cases e : b.event? <;> simp [e]

theorem memWrite_events (a : Word) (v : Byte) (s : State) :
    (memWrite a v s).events = s.events ++ (BusAccess.write a v).event?.toList := events_of_bus (memWrite_bus a v s)

theorem memRead_events (a : Word) (s : State) :
    (memRead a s).2.events = s.events ++ (BusAccess.read a (s.peek a)).event?.toList := events_of_bus rfl

@[simp] theorem ppuWrite_bus (addr : Nat) (v : Byte) (s : State) :
    (ppuWrite addr v s).bus = .ppuWrite (BitVec.ofNat 14 addr) v :: s.bus := by
  unfold ppuWrite
  simp only
  split
  · split <;> rfl
  · split <;> rfl

@[simp] theorem ppuRead_bus (addr : Nat) (s : State) :
    (ppuRead addr s).2.bus = .ppuRead (BitVec.ofNat 14 addr) (ppuRead addr s).1 :: s.bus := by
  unfold ppuRead
  simp only
  split
  · rw [chrReadEffect_only]
  · rfl

/-- The event of a CPU write: a register slot, a stub address, or none (R80, R81). -/
theorem event_write (a : Word) (v : Byte) : (BusAccess.write a v).event?.toList =
    if 0x2000 ≤ a.toNat ∧ a.toNat < 0x4000 then [.ppuRegWrite (BitVec.ofNat 3 (a.toNat % 8)) v]
    else if 0x4000 ≤ a.toNat ∧ a.toNat < 0x4020 then [.ioWrite a v]
    else [] := by
  have hs : a.setWidth 3 = BitVec.ofNat 3 (a.toNat % 8) := BitVec.eq_of_toNat_eq (by simp)
  by_cases h1 : a.toNat < 0x2000
  · simp [BusAccess.event?, oracleAddr, show ¬ 0x2000 ≤ a.toNat by omega, show ¬ 0x4000 ≤ a.toNat by omega]
  · by_cases h2 : a.toNat < 0x4000
    · simp [BusAccess.event?, oracleAddr, hs, show 0x2000 ≤ a.toNat by omega, show a.toNat < 0x4020 by omega, h2]
    · by_cases h3 : a.toNat < 0x4020 <;>
        simp [BusAccess.event?, oracleAddr, show 0x2000 ≤ a.toNat by omega, show 0x4000 ≤ a.toNat by omega, h2, h3]

/-- The event of a CPU read. -/
theorem event_read (a : Word) (v : Byte) : (BusAccess.read a v).event?.toList =
    if 0x2000 ≤ a.toNat ∧ a.toNat < 0x4000 then [.ppuRegRead (BitVec.ofNat 3 (a.toNat % 8)) v]
    else if 0x4000 ≤ a.toNat ∧ a.toNat < 0x4020 then [.ioRead a v]
    else [] := by
  have hs : a.setWidth 3 = BitVec.ofNat 3 (a.toNat % 8) := BitVec.eq_of_toNat_eq (by simp)
  by_cases h1 : a.toNat < 0x2000
  · simp [BusAccess.event?, oracleAddr, show ¬ 0x2000 ≤ a.toNat by omega, show ¬ 0x4000 ≤ a.toNat by omega]
  · by_cases h2 : a.toNat < 0x4000
    · simp [BusAccess.event?, oracleAddr, hs, show 0x2000 ≤ a.toNat by omega, show a.toNat < 0x4020 by omega, h2]
    · by_cases h3 : a.toNat < 0x4020 <;>
        simp [BusAccess.event?, oracleAddr, show 0x2000 ≤ a.toNat by omega, show 0x4000 ≤ a.toNat by omega, h2, h3]

/-- A write can clear the IRQ latch and cannot set it (R83, R170). -/
theorem memWrite_irqPending (a : Word) (v : Byte) (s : State) (h : (memWrite a v s).irqPending = true) :
    s.irqPending = true := by
  rcases Nat.lt_or_ge a.toNat 0x2000 with h1 | h1
  · rw [memWrite_ram v s h1] at h; exact h
  · rcases Nat.lt_or_ge a.toNat 0x6000 with h2 | h2
    · rw [memWrite_none v s h1 h2] at h; exact h
    · rcases Nat.lt_or_ge a.toNat 0x8000 with h3 | h3
      · rw [memWrite_prgRam v s h2 h3] at h; exact h
      · rw [memWrite_mapper v s h3] at h; exact mapperWrite_irqPending a v { s with bus := .write a v :: s.bus } h

/-- A write below 0x6000 or into PRG-RAM leaves the cartridge's registers and tables alone. -/
theorem memWrite_low {a : Word} (v : Byte) (s : State) (h : a.toNat < 0x8000) :
    memWrite a v s = { s with
      ram := (memWrite a v s).ram, prgRam := (memWrite a v s).prgRam, bus := .write a v :: s.bus } := by
  rcases Nat.lt_or_ge a.toNat 0x2000 with h1 | h1
  · rw [memWrite_ram v s h1]
  · rcases Nat.lt_or_ge a.toNat 0x6000 with h' | h'
    · rw [memWrite_none v s h1 h']
    · rw [memWrite_prgRam v s h' h]

/-! ### A write does not depend on the registers -/

/-- `s` with the fields of `c` that no CPU write reads. -/
def State.withCpu (s c : State) : State := { s with
  a := c.a
  x := c.x
  y := c.y
  sp := c.sp
  flags := c.flags
  scratch := c.scratch
  nmiPending := c.nmiPending
  owed := c.owed
  status := c.status
  cancelled := c.cancelled
  vram := c.vram
  chrRam := c.chrRam
  bus := c.bus
  draws := c.draws }

@[simp] theorem withCpu_a (s c : State) : (s.withCpu c).a = c.a := rfl
@[simp] theorem withCpu_x (s c : State) : (s.withCpu c).x = c.x := rfl
@[simp] theorem withCpu_y (s c : State) : (s.withCpu c).y = c.y := rfl
@[simp] theorem withCpu_sp (s c : State) : (s.withCpu c).sp = c.sp := rfl
@[simp] theorem withCpu_pc (s c : State) : (s.withCpu c).pc = s.pc := rfl
@[simp] theorem withCpu_flags (s c : State) : (s.withCpu c).flags = c.flags := rfl
@[simp] theorem withCpu_scratch (s c : State) : (s.withCpu c).scratch = c.scratch := rfl
@[simp] theorem withCpu_nmiPending (s c : State) : (s.withCpu c).nmiPending = c.nmiPending := rfl
@[simp] theorem withCpu_irqPending (s c : State) : (s.withCpu c).irqPending = s.irqPending := rfl
@[simp] theorem withCpu_owed (s c : State) : (s.withCpu c).owed = c.owed := rfl
@[simp] theorem withCpu_status (s c : State) : (s.withCpu c).status = c.status := rfl
@[simp] theorem withCpu_cancelled (s c : State) : (s.withCpu c).cancelled = c.cancelled := rfl
@[simp] theorem withCpu_ram (s c : State) : (s.withCpu c).ram = s.ram := rfl
@[simp] theorem withCpu_vram (s c : State) : (s.withCpu c).vram = c.vram := rfl
@[simp] theorem withCpu_prgRam (s c : State) : (s.withCpu c).prgRam = s.prgRam := rfl
@[simp] theorem withCpu_chrRam (s c : State) : (s.withCpu c).chrRam = c.chrRam := rfl
@[simp] theorem withCpu_cart (s c : State) : (s.withCpu c).cart = s.cart := rfl
@[simp] theorem withCpu_mapper (s c : State) : (s.withCpu c).mapper = s.mapper := rfl
@[simp] theorem withCpu_prgWin (s c : State) : (s.withCpu c).prgWin = s.prgWin := rfl
@[simp] theorem withCpu_chrWin (s c : State) : (s.withCpu c).chrWin = s.chrWin := rfl
@[simp] theorem withCpu_mirroring (s c : State) : (s.withCpu c).mirroring = s.mirroring := rfl
@[simp] theorem withCpu_bus (s c : State) : (s.withCpu c).bus = c.bus := rfl
@[simp] theorem withCpu_draws (s c : State) : (s.withCpu c).draws = c.draws := rfl

theorem withCpu_self (s : State) : s.withCpu s = s := rfl

theorem prg8_withCpu (w : Fin 4) (b : Int) (s c : State) : prg8 w b (s.withCpu c) = (prg8 w b s).withCpu c := rfl
theorem prg16Low_withCpu (b : Int) (s c : State) : prg16Low b (s.withCpu c) = (prg16Low b s).withCpu c := rfl
theorem prg16High_withCpu (b : Int) (s c : State) : prg16High b (s.withCpu c) = (prg16High b s).withCpu c := rfl
theorem prg32_withCpu (b : Int) (s c : State) : prg32 b (s.withCpu c) = (prg32 b s).withCpu c := rfl
theorem setChrWin_withCpu (w : Fin 8) (o : Nat) (s c : State) :
    setChrWin w o (s.withCpu c) = (setChrWin w o s).withCpu c := rfl
theorem chr1_withCpu (w : Fin 8) (b : Int) (s c : State) : chr1 w b (s.withCpu c) = (chr1 w b s).withCpu c := rfl
theorem chrLen_withCpu (s c : State) : (s.withCpu c).chrLen = s.chrLen := rfl
theorem last8_withCpu (s c : State) : (s.withCpu c).last8 = s.last8 := rfl
theorem last16_withCpu (s c : State) : (s.withCpu c).last16 = s.last16 := rfl
theorem chr4Low_withCpu (b : Int) (s c : State) : chr4Low b (s.withCpu c) = (chr4Low b s).withCpu c := by
  simp only [chr4Low, chrLen_withCpu, setChrWin_withCpu]
theorem chr4High_withCpu (b : Int) (s c : State) : chr4High b (s.withCpu c) = (chr4High b s).withCpu c := by
  simp only [chr4High, chrLen_withCpu, setChrWin_withCpu]
theorem chr8_withCpu (b : Int) (s c : State) : chr8 b (s.withCpu c) = (chr8 b s).withCpu c := rfl

theorem mmc1Install_withCpu (r : Mmc1) (s c : State) :
    mmc1Install r (s.withCpu c) = (mmc1Install r s).withCpu c := by
  have e : ({ s.withCpu c with mapper := .mmc1 r, mirroring := mmc1Mirroring r.control } : State) =
      ({ s with mapper := .mmc1 r, mirroring := mmc1Mirroring r.control } : State).withCpu c := rfl
  unfold mmc1Install mmc1Recompute mmc1Prg mmc1Chr
  simp only [e]
  split <;> split <;>
    simp only [chr4Low_withCpu, chr4High_withCpu, chr8_withCpu, prg32_withCpu, prg16Low_withCpu, prg16High_withCpu,
      last16_withCpu]

theorem mmc3Install_withCpu (r : Mmc3) (s c : State) :
    mmc3Install r (s.withCpu c) = (mmc3Install r s).withCpu c := by
  have e : ({ s.withCpu c with mapper := .mmc3 r } : State) = ({ s with mapper := .mmc3 r } : State).withCpu c := rfl
  unfold mmc3Install mmc3Recompute mmc3Prg mmc3Chr
  simp only [e]
  split <;> split <;> simp only [chr1_withCpu, prg8_withCpu, last8_withCpu]

theorem namco108Install_withCpu (r : Namco108) (s c : State) :
    namco108Install r (s.withCpu c) = (namco108Install r s).withCpu c := by
  have e : ({ s.withCpu c with mapper := .namco108 r } : State) =
      ({ s with mapper := .namco108 r } : State).withCpu c := rfl
  unfold namco108Install namco108Recompute
  simp only [e, chr1_withCpu, prg8_withCpu, last8_withCpu]

theorem mmc2Install_withCpu (r : LatchMapper) (s c : State) :
    mmc2Install r (s.withCpu c) = (mmc2Install r s).withCpu c := by
  have e : ({ s.withCpu c with mapper := .mmc2 r } : State) = ({ s with mapper := .mmc2 r } : State).withCpu c := rfl
  unfold mmc2Install latchChr
  simp only [e, chr4Low_withCpu, chr4High_withCpu, prg8_withCpu, last8_withCpu]

theorem mmc4Install_withCpu (r : LatchMapper) (s c : State) :
    mmc4Install r (s.withCpu c) = (mmc4Install r s).withCpu c := by
  have e : ({ s.withCpu c with mapper := .mmc4 r } : State) = ({ s with mapper := .mmc4 r } : State).withCpu c := rfl
  unfold mmc4Install latchChr
  simp only [e, chr4Low_withCpu, chr4High_withCpu, prg16Low_withCpu, prg16High_withCpu, last16_withCpu]

theorem mmc1Write_withCpu (r : Mmc1) (a : Word) (v : Byte) (s c : State) :
    mmc1Write r a v (s.withCpu c) = (mmc1Write r a v s).withCpu c := by
  by_cases h1 : r.lastWritePC = some s.pc
  · have h1' : r.lastWritePC = some (s.withCpu c).pc := h1
    unfold mmc1Write
    rw [if_pos h1', if_pos h1]
  · have h1' : ¬ r.lastWritePC = some (s.withCpu c).pc := h1
    unfold mmc1Write
    rw [if_neg h1', if_neg h1]
    simp only
    by_cases h2 : v.getLsbD 7 = true
    · rw [if_pos h2, if_pos h2]
      exact mmc1Install_withCpu _ _ _
    · rw [if_neg h2, if_neg h2]
      by_cases h3 : r.count = 4
      · rw [if_pos h3, if_pos h3]
        exact mmc1Install_withCpu _ _ _
      · rw [if_neg h3, if_neg h3]
        rfl

theorem mapperWrite_withCpu (a : Word) (v : Byte) (s c : State) :
    mapperWrite a v (s.withCpu c) = (mapperWrite a v s).withCpu c := by
  unfold mapperWrite
  simp only [withCpu_mapper]
  cases s.mapper
  case mmc1 r =>
    exact mmc1Write_withCpu _ _ _ _ _
  case mmc3 r =>
    simp only [mmc3Write]
    split
    · exact mmc3Install_withCpu _ _ _
    · exact mmc3Install_withCpu _ _ _
    all_goals rfl
  case namco108 r =>
    simp only [namco108Write]
    split
    · rfl
    · exact namco108Install_withCpu _ _ _
    · rfl
  case mmc2 r =>
    simp only [mmc2Write]
    split
    · rfl
    · exact mmc2Install_withCpu _ { s with mirroring := latchMirroring a v s.mirroring } c
  case mmc4 r =>
    simp only [mmc4Write]
    split
    · rfl
    · exact mmc4Install_withCpu _ { s with mirroring := latchMirroring a v s.mirroring } c
  case camerica r =>
    simp only
    split <;> rfl
  all_goals rfl

/-- A CPU write does the same whatever the registers, the flags, the scratch and the counters are. -/
theorem memWrite_withCpu (a : Word) (v : Byte) (s c : State) :
    memWrite a v (s.withCpu c) = (memWrite a v s).withCpu { c with bus := .write a v :: c.bus } := by
  rcases Nat.lt_or_ge a.toNat 0x2000 with h | h
  · rw [memWrite_ram v _ h, memWrite_ram v _ h]; rfl
  · rcases Nat.lt_or_ge a.toNat 0x6000 with h' | h'
    · rw [memWrite_none v _ h h', memWrite_none v _ h h']; rfl
    · rcases Nat.lt_or_ge a.toNat 0x8000 with h'' | h''
      · rw [memWrite_prgRam v _ h' h'', memWrite_prgRam v _ h' h'']; rfl
      · rw [memWrite_mapper v _ h'', memWrite_mapper v _ h'']
        have e1 : ({ s.withCpu c with bus := .write a v :: (s.withCpu c).bus } : State) =
            s.withCpu { c with bus := .write a v :: c.bus } := rfl
        have e2 : ({ s with bus := .write a v :: s.bus } : State) =
            s.withCpu { s with bus := .write a v :: s.bus } := rfl
        rw [e1, e2, mapperWrite_withCpu, mapperWrite_withCpu]
        rfl

/-! ### What a read finds after a write -/

theorem sameByte_of_not {a b : Word} (h : ¬ sameByte a b) :
    a ≠ b ∧ ¬ (a.toNat < 0x2000 ∧ b.toNat < 0x2000 ∧ a.toNat % 0x800 = b.toNat % 0x800) := by
  simpa [sameByte] using h

/-- The arrays that CPU writes store to are in canonical form. -/
abbrev State.WritableOk (s : State) : Prop := s.ram.wf = true ∧ s.prgRam.wf = true

theorem State.MemoryOk.writable {s : State} (h : s.MemoryOk) : s.WritableOk := ⟨h.1.1, h.2.2.1.1⟩

/-- A write keeps the canonical form. -/
theorem memWrite_writableOk {s : State} (h : s.WritableOk) (a : Word) (v : Byte) : (memWrite a v s).WritableOk := by
  rcases Nat.lt_or_ge a.toNat 0x2000 with h1 | h1
  · rw [memWrite_ram v s h1]
    exact ⟨Memory.wf_set h.1 _ _, h.2⟩
  · rcases Nat.lt_or_ge a.toNat 0x6000 with h2 | h2
    · rw [memWrite_none v s h1 h2]
      exact h
    · rcases Nat.lt_or_ge a.toNat 0x8000 with h3 | h3
      · rw [memWrite_prgRam v s h2 h3]
        exact ⟨h.1, Memory.wf_set h.2 _ _⟩
      · rw [memWrite_mapper v s h3, mapperWrite_only]
        exact h

/-- A write changes no byte but the one at its address (for RAM, at its mirrors too). -/
theorem memWrite_sameBytesBut {s : State} (hm : s.WritableOk) (a : Word) (v : Byte) :
    SameBytesBut a s (memWrite a v s) := by
  intro b hb hne hhigh
  obtain ⟨hne, hmir⟩ := sameByte_of_not hne
  have hnat : a.toNat ≠ b.toNat := fun e => hne (BitVec.eq_of_toNat_eq e)
  rcases Nat.lt_or_ge a.toNat 0x2000 with h | h
  · rw [memWrite_ram v s h]
    rcases Nat.lt_or_ge b.toNat 0x2000 with hb2 | hb2
    · rw [peek_ram hb2, peek_ram hb2]
      exact Memory.get_set_of_ne hm.1 v (by omega)
    · have hb3 : ¬ b.toNat < 0x2000 := by omega
      simp only [State.peek, State.prgIndex, if_neg hb3]
  · rcases Nat.lt_or_ge a.toNat 0x6000 with h' | h'
    · rw [memWrite_none v s h h']
      exact peek_congr rfl rfl rfl rfl rfl b
    · rcases Nat.lt_or_ge a.toNat 0x8000 with h'' | h''
      · rw [memWrite_prgRam v s h' h'']
        by_cases hb2 : 0x6000 ≤ b.toNat ∧ b.toNat < 0x8000
        · rw [peek_prgRam hb2.1 hb2.2, peek_prgRam hb2.1 hb2.2]
          exact Memory.get_set_of_ne hm.2 v (by omega)
        · simp only [State.peek, State.prgIndex]
          split
          · rfl
          · split
            · rfl
            · split
              · rfl
              · split
                · rfl
                · rw [if_neg (by omega), if_neg (by omega)]
      · have hlow := hhigh h''
        have hr : (memWrite a v s).ram = s.ram := by
          rw [memWrite_mapper v s h'', mapperWrite_only]
        have hp : (memWrite a v s).prgRam = s.prgRam := by
          rw [memWrite_mapper v s h'', mapperWrite_only]
        simp only [State.peek, hr, hp, memWrite_draws]
        split
        · rfl
        · split
          · rfl
          · split
            · rfl
            · split
              · rfl
              · rfl

/-- The byte written to RAM or PRG-RAM is the byte read there. -/
theorem memWrite_peek {s : State} (hm : s.WritableOk) {a b : Word} (v : Byte)
    (ha : a.toNat < 0x2000 ∨ (0x6000 ≤ a.toNat ∧ a.toNat < 0x8000)) (hs : sameByte a b) :
    (memWrite a v s).peek b = v := by
  rcases ha with h | ⟨h, h'⟩
  · have hb : b.toNat < 0x2000 ∧ a.toNat % 0x800 = b.toNat % 0x800 := by
      rcases hs with rfl | ⟨_, hb, he⟩
      · exact ⟨h, rfl⟩
      · exact ⟨hb, he⟩
    rw [memWrite_ram v s h, peek_ram hb.1, hb.2]
    exact Memory.get_set_self hm.1 _ v
  · have hb : a = b := by
      rcases hs with h1 | ⟨h1, _⟩
      · exact h1
      · omega
    subst hb
    rw [memWrite_prgRam v s h h', peek_prgRam h h']
    exact Memory.get_set_self hm.2 _ v

/-- An address that names a byte of RAM or PRG-RAM is no oracle address, nor is a mirror of it. -/
theorem oracleAddr_of_writable {a b : Word} (h : a.toNat < 0x2000 ∨ (0x6000 ≤ a.toNat ∧ a.toNat < 0x8000))
    (hb : sameByte a b) : oracleAddr b = false := by
  have : b = a ∨ b.toNat < 0x2000 := by
    rcases hb with hb | hb
    · exact .inl hb.symm
    · exact .inr hb.2.1
  simp only [oracleAddr, Bool.and_eq_false_iff, decide_eq_false_iff_not]
  rcases this with rfl | h <;> omega

/-- Two writes at one address, as a read-modify-write makes them (R266): no other byte changes, and the second byte
is the one read there. -/
theorem memWrite_twice {s : State} (hm : s.WritableOk) (a : Word) (m r : Byte) :
    SameBytesBut a s (memWrite a r (memWrite a m s)) ∧
    (a.toNat < 0x2000 ∨ (0x6000 ≤ a.toNat ∧ a.toNat < 0x8000) → ∀ b, sameByte a b →
      (memWrite a r (memWrite a m s)).peek b = r) :=
  ⟨fun b h1 h2 h3 => (memWrite_sameBytesBut (memWrite_writableOk hm a m) a r b h1 h2 h3).trans
      (memWrite_sameBytesBut hm a m b h1 h2 h3),
    fun h _ hb => memWrite_peek (memWrite_writableOk hm a m) r h hb⟩

/-- A write where the cost, the scratch and the bus record were changed before it (as by the frame of an
instruction). -/
theorem memWrite_counters (a : Word) (v : Byte) (s : State) (o : Nat) (sc : Option Scratch) (b : List BusAccess)
    (d : Nat) :
    memWrite a v { s with owed := o, scratch := sc, bus := b, draws := d } =
      { memWrite a v s with owed := o, scratch := sc, bus := .write a v :: b, draws := d } := by
  have h := memWrite_withCpu a v s { s with owed := o, scratch := sc, bus := b, draws := d }
  have e := memWrite_only a v s
  refine h.trans ?_
  generalize memWrite a v s = t at e
  rw [e]
  rfl

/-- A write keeps every array in canonical form and within its length. -/
theorem memWrite_memoryOk {s : State} (hs : s.SizesOk) (hm : s.MemoryOk) (a : Word) (v : Byte) :
    (memWrite a v s).MemoryOk := by
  obtain ⟨⟨hr, hr'⟩, hv, ⟨hp, hp'⟩, hc, hg, hh⟩ := hm
  rcases Nat.lt_or_ge a.toNat 0x2000 with h | h
  · rw [memWrite_ram v s h]
    exact ⟨⟨Memory.wf_set hr _ _, Memory.below_set hr' (by omega) _⟩, hv, ⟨hp, hp'⟩, hc, hg, hh⟩
  · rcases Nat.lt_or_ge a.toNat 0x6000 with h' | h'
    · rw [memWrite_none v s h h']
      exact ⟨⟨hr, hr'⟩, hv, ⟨hp, hp'⟩, hc, hg, hh⟩
    · rcases Nat.lt_or_ge a.toNat 0x8000 with h'' | h''
      · rw [memWrite_prgRam v s h' h'']
        have hu := hs.2
        refine ⟨⟨hr, hr'⟩, hv, ⟨Memory.wf_set hp _ _, Memory.below_set hp' ?_ _⟩, hc, hg, hh⟩
        show a.toNat - 0x6000 < 8192 * s.cart.prgRamUnits
        omega
      · rw [memWrite_mapper v s h'', mapperWrite_only]
        exact ⟨⟨hr, hr'⟩, hv, ⟨hp, hp'⟩, hc, hg, hh⟩

/-! ### The resolver and the operand primitives -/

/-- `t` is `s` but for the bus record and the number of draws. -/
def BusOnly (s t : State) : Prop := t = { s with bus := t.bus, draws := t.draws }

theorem BusOnly.refl (s : State) : BusOnly s s := rfl

theorem BusOnly.trans {s t u : State} (h : BusOnly s t) (h' : BusOnly t u) : BusOnly s u := by
  unfold BusOnly at *; rw [h', h]

theorem recordRead_busOnly (a : Word) (v : Byte) (s : State) : BusOnly s (recordRead a v s) := rfl

theorem memRead_busOnly (a : Word) (s : State) : BusOnly s (memRead a s).2 := rfl

theorem readPointer_busOnly (l h : Word) (s : State) : BusOnly s (readPointer l h s).2 := rfl

/-- The resolver reads the bus and changes nothing else (R263). -/
theorem resolve_busOnly (o : Operand) (s : State) : BusOnly s (resolve o s).state := by
  cases o <;> exact rfl

/-- `OperandRead` reads the bus at most once and changes nothing else (R265). -/
theorem operandRead_busOnly (p : Place) (s : State) : BusOnly s (operandRead p s).2 := by
  cases p <;> exact rfl

/-- The bus accesses of the resolver (R282). -/
theorem resolve_bus (o : Operand) (s : State) : (resolve o s).state.bus = o.pointerReads s ++ s.bus := by
  cases o
  case indx z =>
    simp only [resolve, readPointer, memRead, Operand.pointerReads, recordRead_bus, List.cons_append, List.nil_append]
    rw [peek_recordRead _ _ _ _ (oracleAddr_zext _)]
  case indy z =>
    simp only [resolve, readPointer, memRead, Operand.pointerReads, recordRead_bus, List.cons_append, List.nil_append]
    rw [peek_recordRead _ _ _ _ (oracleAddr_zext _)]
  case ind w => rfl
  all_goals rfl

/-- The resolver of every mode but `ind` makes no oracle draw. -/
theorem resolve_draws (o : Operand) (s : State) (h : o.mode ≠ .ind) : (resolve o s).state.draws = s.draws := by
  cases o
  case ind w => exact absurd rfl h
  case indx z => simp [resolve, readPointer, memRead, bit]
  case indy z => simp [resolve, readPointer, memRead, bit]
  all_goals rfl

end Sys2Proof.Machine
end

