-- ==== Sys2Proof/Laws/Windows.lean ====
section
/-!
SUPPORT. Every bank switch, register write, bus write and CHR read keeps the offset tables within their arrays
(R123, R484).
-/
namespace Sys2Proof.Machine

theorem setPrgWin_windowsOk (w : Fin 4) (off : Nat) (s : State) (h : s.WindowsOk) (h1 : off % 0x2000 = 0)
    (h2 : off < s.prgLen) : (setPrgWin w off s).WindowsOk := by
  refine ⟨?_, h.2⟩
  intro k
  show (s.prgWin.set w off)[k.val] % _ = 0 ∧ (s.prgWin.set w off)[k.val] < s.prgLen
  rw [Vector.getElem_set]
  split
  · exact ⟨h1, h2⟩
  · exact h.1 k

theorem setChrWin_windowsOk (w : Fin 8) (off : Nat) (s : State) (h : s.WindowsOk) (h1 : off % 0x400 = 0)
    (h2 : off < s.chrLen) : (setChrWin w off s).WindowsOk := by
  refine ⟨h.1, ?_⟩
  intro k
  show (s.chrWin.set w off)[k.val] % _ = 0 ∧ (s.chrWin.set w off)[k.val] < s.chrLen
  rw [Vector.getElem_set]
  split
  · exact ⟨h1, h2⟩
  · exact h.2 k

theorem State.prgLen_pos {s : State} (h : s.WindowsOk) : 0 < s.prgLen := by have := (h.1 0).2; omega
theorem State.chrLen_pos (s : State) : 0 < s.chrLen := by unfold State.chrLen; split <;> omega
theorem State.prgLen_mod (s : State) : s.prgLen % 0x2000 = 0 := by unfold State.prgLen; omega
theorem State.chrLen_mod (s : State) : s.chrLen % 0x400 = 0 := by unfold State.chrLen; split <;> omega

/-- An operation that keeps every offset in its array and a multiple of its window. -/
def KeepsWindows (f : State → State) : Prop := ∀ s : State, s.WindowsOk → (f s).WindowsOk

theorem setPrgBank_windowsOk (w unit part b) (hu : unit % 0x2000 = 0) (hp : part % 0x2000 = 0) : KeepsWindows
    (fun s => setPrgWin w (bankOffset s.prgLen unit part b) s) := fun s h =>
  setPrgWin_windowsOk _ _ _ h (bankOffset_mod _ (State.prgLen_pos h) (State.prgLen_mod s) hu hp)
      (bankOffset_lt _ _ _ (State.prgLen_pos h))

theorem setChrBank_windowsOk (w unit part b) (hu : unit % 0x400 = 0) (hp : part % 0x400 = 0) : KeepsWindows
    (fun s => setChrWin w (bankOffset s.chrLen unit part b) s) := fun s h =>
  setChrWin_windowsOk _ _ _ h (bankOffset_mod _ (State.chrLen_pos s) (State.chrLen_mod s) hu hp)
      (bankOffset_lt _ _ _ (State.chrLen_pos s))

theorem prg8_windowsOk (w b) : KeepsWindows (prg8 w b) := setPrgBank_windowsOk _ _ _ _ (by decide) (by decide)
theorem chr1_windowsOk (w b) : KeepsWindows (chr1 w b) := setChrBank_windowsOk _ _ _ _ (by decide) (by decide)
theorem prg16Low_windowsOk (b) : KeepsWindows (prg16Low b) := fun s h => setPrgBank_windowsOk 1 0x4000 0x2000 b
    (by decide) (by decide) _ (setPrgBank_windowsOk 0 0x4000 0 b (by decide) (by decide) s h)

theorem prg16High_windowsOk (b) : KeepsWindows (prg16High b) :=
    fun s h => setPrgBank_windowsOk 3 0x4000 0x2000 b (by decide) (by decide) _
    (setPrgBank_windowsOk 2 0x4000 0 b (by decide) (by decide) s h)

theorem prg32_windowsOk (b) : KeepsWindows (prg32 b) := fun s h => by
  have e : prg32 b s = setPrgWin 3 (bankOffset s.prgLen 0x8000 0x6000 b) (setPrgWin 2
      (bankOffset s.prgLen 0x8000 0x4000 b) (setPrgWin 1 (bankOffset s.prgLen 0x8000 0x2000 b) (setPrgWin 0
      (bankOffset s.prgLen 0x8000 0 b) s))) := by
    unfold prg32 setPrgWin
    refine congrArg (fun w => ({ s with prgWin := w } : State)) ?_
    exact (vector_set_four _ _ _ _ _).symm
  rw [e]
  exact setPrgBank_windowsOk 3 0x8000 0x6000 b (by decide) (by decide) _ (setPrgBank_windowsOk 2 0x8000 0x4000 b
      (by decide) (by decide) _ (setPrgBank_windowsOk 1 0x8000 0x2000 b (by decide) (by decide) _
      (setPrgBank_windowsOk 0 0x8000 0 b (by decide) (by decide) s h)))

theorem chr4Low_windowsOk (b) : KeepsWindows (chr4Low b) := fun s h => setChrBank_windowsOk 3 0x1000 0xC00 b
    (by decide) (by decide) _ (setChrBank_windowsOk 2 0x1000 0x800 b (by decide) (by decide) _
    (setChrBank_windowsOk 1 0x1000 0x400 b (by decide) (by decide) _ (setChrBank_windowsOk 0 0x1000 0 b
    (by decide) (by decide) s h)))

theorem chr4High_windowsOk (b) : KeepsWindows (chr4High b) := fun s h => setChrBank_windowsOk 7 0x1000 0xC00 b
    (by decide) (by decide) _ (setChrBank_windowsOk 6 0x1000 0x800 b (by decide) (by decide) _
    (setChrBank_windowsOk 5 0x1000 0x400 b (by decide) (by decide) _ (setChrBank_windowsOk 4 0x1000 0 b
    (by decide) (by decide) s h)))

theorem chr8_windowsOk (b) : KeepsWindows (chr8 b) := fun s h => by
  refine ⟨h.1, ?_⟩
  intro k
  have c : ∀ part, part % 0x400 = 0 → bankOffset s.chrLen 0x2000 part b % 0x400 = 0
      ∧ bankOffset s.chrLen 0x2000 part b < s.chrLen := fun part hp =>
    ⟨bankOffset_mod _ (State.chrLen_pos s) (State.chrLen_mod s) (by decide) hp, bankOffset_lt _ _ _
        (State.chrLen_pos s)⟩
  fin_cases k
  · exact c 0 (by decide)
  · exact c 0x400 (by decide)
  · exact c 0x800 (by decide)
  · exact c 0xC00 (by decide)
  · exact c 0x1000 (by decide)
  · exact c 0x1400 (by decide)
  · exact c 0x1800 (by decide)
  · exact c 0x1C00 (by decide)

theorem mmc1Install_windowsOk (r) : KeepsWindows (mmc1Install r) := fun s h => by
  unfold mmc1Install mmc1Recompute mmc1Prg mmc1Chr
  have h0 : ({ s with mapper := .mmc1 r, mirroring := mmc1Mirroring r.control } : State).WindowsOk := h
  simp only
  split <;> split
  · exact prg32_windowsOk _ _ (chr4High_windowsOk _ _ (chr4Low_windowsOk _ _ h0))
  · exact prg32_windowsOk _ _ (chr8_windowsOk _ _ h0)
  · exact prg16High_windowsOk _ _ (prg16Low_windowsOk _ _ (chr4High_windowsOk _ _ (chr4Low_windowsOk _ _ h0)))
  · exact prg16High_windowsOk _ _ (prg16Low_windowsOk _ _ (chr8_windowsOk _ _ h0))
  · exact prg16High_windowsOk _ _ (prg16Low_windowsOk _ _ (chr4High_windowsOk _ _ (chr4Low_windowsOk _ _ h0)))
  · exact prg16High_windowsOk _ _ (prg16Low_windowsOk _ _ (chr8_windowsOk _ _ h0))

theorem prg8Four_windowsOk (b0 b1 b2 b3 : Int) : KeepsWindows (fun s => prg8 3 b3 (prg8 2 b2 (prg8 1 b1
    (prg8 0 b0 s)))) := fun s h =>
  prg8_windowsOk _ _ _ (prg8_windowsOk _ _ _ (prg8_windowsOk _ _ _ (prg8_windowsOk _ _ s h)))

theorem chr1Eight_windowsOk (b0 b1 b2 b3 b4 b5 b6 b7 : Int) : KeepsWindows (fun s => chr1 7 b7 (chr1 6 b6
    (chr1 5 b5 (chr1 4 b4 (chr1 3 b3 (chr1 2 b2 (chr1 1 b1 (chr1 0 b0 s)))))))) := fun s h =>
  chr1_windowsOk _ _ _ (chr1_windowsOk _ _ _ (chr1_windowsOk _ _ _ (chr1_windowsOk _ _ _ (chr1_windowsOk _ _ _
      (chr1_windowsOk _ _ _ (chr1_windowsOk _ _ _ (chr1_windowsOk _ _ s h)))))))

theorem mmc3Install_windowsOk (r) : KeepsWindows (mmc3Install r) := fun s h => by
  unfold mmc3Install mmc3Recompute mmc3Prg mmc3Chr
  have h0 : ({ s with mapper := .mmc3 r } : State).WindowsOk := h
  split <;> split <;> exact chr1Eight_windowsOk _ _ _ _ _ _ _ _ _ (prg8Four_windowsOk _ _ _ _ _ h0)

theorem namco108Install_windowsOk (r) : KeepsWindows (namco108Install r) := fun s h => by
  unfold namco108Install namco108Recompute
  have h0 : ({ s with mapper := .namco108 r } : State).WindowsOk := h
  exact chr1Eight_windowsOk _ _ _ _ _ _ _ _ _ (prg8Four_windowsOk _ _ _ _ _ h0)

theorem mmc2Install_windowsOk (r) : KeepsWindows (mmc2Install r) := fun s h => by
  unfold mmc2Install latchChr
  have h0 : ({ s with mapper := .mmc2 r } : State).WindowsOk := h
  exact prg8Four_windowsOk _ _ _ _ _ (chr4High_windowsOk _ _ (chr4Low_windowsOk _ _ h0))

theorem mmc4Install_windowsOk (r) : KeepsWindows (mmc4Install r) := fun s h => by
  unfold mmc4Install latchChr
  have h0 : ({ s with mapper := .mmc4 r } : State).WindowsOk := h
  exact prg16High_windowsOk _ _ (prg16Low_windowsOk _ _ (chr4High_windowsOk _ _ (chr4Low_windowsOk _ _ h0)))

/-- A register write keeps the windows (R123, R484). -/
theorem mapperWrite_windowsOk (a v) : KeepsWindows (mapperWrite a v) := fun s h => by
  unfold mapperWrite
  have hm : ∀ m mir, ({ s with mapper := m, mirroring := mir } : State).WindowsOk := fun _ _ => h
  split
  · exact h
  · unfold mmc1Write; split
    · exact h
    · simp only; split
      · exact mmc1Install_windowsOk _ _ h
      · split
        · exact mmc1Install_windowsOk _ _ h
        · exact h
  · exact prg16Low_windowsOk _ _ h
  · exact chr8_windowsOk _ _ h
  · unfold mmc3Write; split
    · exact mmc3Install_windowsOk _ _ h
    · exact mmc3Install_windowsOk _ _ h
    all_goals exact h
  · exact prg32_windowsOk _ _ (hm _ _)
  · unfold mmc2Write; split
    · exact h
    · exact mmc2Install_windowsOk _ _ (hm s.mapper _)
  · unfold mmc4Write; split
    · exact h
    · exact mmc4Install_windowsOk _ _ (hm s.mapper _)
  · exact chr8_windowsOk _ _ (prg32_windowsOk _ _ (hm _ s.mirroring))
  · exact chr8_windowsOk _ _ (prg32_windowsOk _ _ (hm _ s.mirroring))
  · split
    · exact prg16Low_windowsOk _ _ h
    · exact h
  · exact prg16Low_windowsOk _ _ h
  · exact prg16High_windowsOk _ _ h
  · unfold namco108Write; split
    · exact h
    · exact namco108Install_windowsOk _ _ h
    · exact h

/-- A bus write keeps them. -/
theorem memWrite_windowsOk (a v) : KeepsWindows (memWrite a v) := fun s h => by
  rcases Nat.lt_or_ge a.toNat 0x8000 with h3 | h3
  · rw [memWrite_low v s h3]; exact h
  · rw [memWrite_mapper v s h3]; exact mapperWrite_windowsOk _ _ _ h

/-- A CHR read's side effect keeps the windows (R183). -/
theorem chrReadEffect_windowsOk (a : PpuAddr) : KeepsWindows (chrReadEffect a) := fun s h => by
  unfold chrReadEffect
  split
  · split
    · exact h
    · exact mmc2Install_windowsOk _ _ h
  · split
    · exact h
    · exact mmc4Install_windowsOk _ _ h
  · exact h

end Sys2Proof.Machine
end

