-- ==== Sys2Proof/Laws/Coherent.lean ====
section
/-!
SUPPORT. The offset tables as a function of the variant's registers and the cartridge (R120): what a variant's
power-on gives, and that every register write, bus write and CHR read keeps the tables following the registers.
-/
namespace Sys2Proof.Machine

theorem prg16Both_eq (b c : Int) (s : State) : prg16High c (prg16Low b s) = { s with prgWin :=
    #v[bankOffset s.prgLen 0x4000 0 b, bankOffset s.prgLen 0x4000 0x2000 b, bankOffset s.prgLen 0x4000 0 c,
        bankOffset s.prgLen 0x4000 0x2000 c] } := by
  unfold prg16Low prg16High setPrgWin
  refine congrArg (fun w => ({ s with prgWin := w } : State)) ?_
  exact vector_set_four _ _ _ _ _

theorem chr4Both_eq (b c : Int) (s : State) : chr4High c (chr4Low b s) = { s with chrWin :=
    #v[bankOffset s.chrLen 0x1000 0 b, bankOffset s.chrLen 0x1000 0x400 b, bankOffset s.chrLen 0x1000 0x800 b,
        bankOffset s.chrLen 0x1000 0xC00 b, bankOffset s.chrLen 0x1000 0 c, bankOffset s.chrLen 0x1000 0x400 c,
        bankOffset s.chrLen 0x1000 0x800 c, bankOffset s.chrLen 0x1000 0xC00 c] } := by
  unfold chr4Low chr4High setChrWin
  refine congrArg (fun w => ({ s with chrWin := w } : State)) ?_
  exact vector_set_eight _ _ _ _ _ _ _ _ _

/-- Some state of a given cartridge. -/
def bare (c : Cartridge) : State := { State.reset with cart := c }
/-- The mirroring of a variant over a given one: MMC1 and AxROM set their own. -/
def Mapper.mirroringOver (m : Mapper) (x : Mirroring) : Mirroring :=
  match m with
  | .mmc1 r => mmc1Mirroring r.control
  | .axrom r => if r.getLsbD 4 then .singleUpper else .singleLower
  | _ => x

/-- What a variant's power-on does: the tables depend on the variant's registers and the cartridge only. -/
theorem mapperPowerOn_eq (m : Mapper) (s : State) : mapperPowerOn m s = { s with
    mapper := m, prgWin := (mapperPowerOn m (bare s.cart)).prgWin, chrWin := (mapperPowerOn m
        (bare s.cart)).chrWin, mirroring := Mapper.mirroringOver m s.mirroring } := by
  cases m
  case mmc1 r =>
    unfold mapperPowerOn mmc1Install mmc1Recompute mmc1Chr mmc1Prg
    simp only
    split <;> split <;> simp only [chr4Both_eq, chr8, prg32, prg16Both_eq] <;> rfl
  case mmc3 r =>
    unfold mapperPowerOn mmc3Install mmc3Recompute mmc3Chr mmc3Prg
    simp only
    split <;> split <;> simp only [chr1_eight, prg8_four] <;> rfl
  case namco108 r =>
    unfold mapperPowerOn namco108Install namco108Recompute
    simp only [chr1_eight, prg8_four] <;> rfl
  case mmc2 r =>
    unfold mapperPowerOn mmc2Install latchChr
    simp only [chr4Both_eq, prg8_four] <;> rfl
  case mmc4 r =>
    unfold mapperPowerOn mmc4Install latchChr
    simp only [chr4Both_eq, prg16Both_eq] <;> rfl
  all_goals
    unfold mapperPowerOn
    simp only [chr8, prg32, prg16Both_eq]
    rfl

/-- The tables and the mirroring are those of the variant's registers and the cartridge, field by field. -/
def TablesFollow (s : State) : Prop := s.prgWin = (mapperPowerOn s.mapper (bare s.cart)).prgWin ∧ s.chrWin =
    (mapperPowerOn s.mapper (bare s.cart)).chrWin ∧ s.mirroring = Mapper.mirroringOver s.mapper s.mirroring

theorem coherent_iff (s : State) : s.Coherent ↔ TablesFollow s := by
  unfold State.Coherent TablesFollow
  rw [mapperPowerOn_eq]
  constructor
  · intro h
    refine ⟨?_, ?_, ?_⟩
    · conv_lhs => rw [← h]
    · conv_lhs => rw [← h]
    · conv_lhs => rw [← h]
  · rintro ⟨h1, h2, h3⟩
    rw [← h1, ← h2, ← h3]

theorem mapperPowerOn_tables (m : Mapper) (s : State) : TablesFollow (mapperPowerOn m s) := by
  rw [mapperPowerOn_eq]
  refine ⟨rfl, rfl, ?_⟩
  cases m <;> rfl

theorem tables_congr {s t : State} (h : TablesFollow s) (h1 : t.mapper = s.mapper) (h2 : t.cart = s.cart)
    (h3 : t.prgWin = s.prgWin) (h4 : t.chrWin = s.chrWin) (h5 : t.mirroring = s.mirroring) : TablesFollow t := by
  unfold TablesFollow at *; rw [h1, h2, h3, h4, h5]; exact h

/-- A change of registers that no table depends on. -/
theorem tables_sameRegisters {s : State} (m : Mapper) (hm : s.mapper = m) (m' : Mapper) (t : State)
    (h : TablesFollow s) (ht : t.mapper = m') (hc : t.cart = s.cart) (hp : t.prgWin = s.prgWin)
    (hq : t.chrWin = s.chrWin)
    (e : ∀ c, (mapperPowerOn m' (bare c)).prgWin = (mapperPowerOn m (bare c)).prgWin ∧ (mapperPowerOn m'
        (bare c)).chrWin = (mapperPowerOn m (bare c)).chrWin)
    (hmir : t.mirroring = Mapper.mirroringOver m' t.mirroring) : TablesFollow t := by
  obtain ⟨h1, h2, h3⟩ := h
  refine ⟨?_, ?_, ?_⟩
  · rw [ht, hc, hp, (e _).1, h1, hm]
  · rw [ht, hc, hq, (e _).2, h2, hm]
  · rw [ht]; exact hmir


theorem mmc1_tables (r q : Mmc1) (hc : q.control = r.control) (h0 : q.chr0 = r.chr0) (h1 : q.chr1 = r.chr1)
    (hp : q.prg = r.prg) (c : Cartridge) :
    (mapperPowerOn (.mmc1 q) (bare c)).prgWin = (mapperPowerOn (.mmc1 r) (bare c)).prgWin ∧ (mapperPowerOn
        (.mmc1 q) (bare c)).chrWin = (mapperPowerOn (.mmc1 r) (bare c)).chrWin := by
  obtain ⟨sh, ct, co, c0, c1, p, l⟩ := r
  obtain ⟨sh', ct', co', c0', c1', p', l'⟩ := q
  simp only at hc h0 h1 hp
  subst hc h0 h1 hp
  unfold mapperPowerOn mmc1Install mmc1Recompute mmc1Chr mmc1Prg
  simp only
  split <;> split <;> exact ⟨rfl, rfl⟩

theorem fixedLast_tables (m : Mapper) (b : Int) (c : Cartridge) (h : ∀ s, mapperPowerOn m s = chr8 0
    (prg16High s.last16 (prg16Low b { s with mapper := m }))) :
    (mapperPowerOn m (bare c)).prgWin = #v[bankOffset (bare c).prgLen 0x4000 0 b, bankOffset
        (bare c).prgLen 0x4000 0x2000 b, bankOffset (bare c).prgLen 0x4000 0 (bare c).last16, bankOffset
        (bare c).prgLen 0x4000 0x2000 (bare c).last16] ∧ (mapperPowerOn m (bare c)).chrWin = (chr8 0
        (bare c)).chrWin := by
  rw [h, prg16Both_eq]; exact ⟨rfl, rfl⟩

theorem prg16Low_set (b : Int) (s : State) : prg16Low b s = { s with prgWin :=
    #v[bankOffset s.prgLen 0x4000 0 b, bankOffset s.prgLen 0x4000 0x2000 b, s.prgWin[2], s.prgWin[3]] } := by
  unfold prg16Low setPrgWin
  refine congrArg (fun w => ({ s with prgWin := w } : State)) ?_
  exact vector_set_low _ _ _

theorem prg16High_set (b : Int) (s : State) : prg16High b s = { s with prgWin :=
    #v[s.prgWin[0], s.prgWin[1], bankOffset s.prgLen 0x4000 0 b, bankOffset s.prgLen 0x4000 0x2000 b] } := by
  unfold prg16High setPrgWin
  refine congrArg (fun w => ({ s with prgWin := w } : State)) ?_
  exact vector_set_high _ _ _

theorem prg16Low_tables (s : State) (m m' : Mapper) (b b' : Int) (hm : s.mapper = m) (h : TablesFollow s)
  (e : ∀ s, mapperPowerOn m s = chr8 0 (prg16High s.last16 (prg16Low b { s with mapper := m })))
  (e' : ∀ s, mapperPowerOn m' s = chr8 0 (prg16High s.last16 (prg16Low b' { s with mapper := m' })))
  (hr : ∀ x, Mapper.mirroringOver m' x = x) : TablesFollow (prg16Low b' { s with mapper := m' }) := by
  have h1 := h.1; have h2 := h.2.1
  rw [hm] at h1 h2
  rw [(fixedLast_tables m b _ e).1] at h1
  rw [(fixedLast_tables m b _ e).2] at h2
  rw [prg16Low_set]
  refine ⟨?_, ?_, ?_⟩
  · show _ = (mapperPowerOn m' (bare s.cart)).prgWin
    rw [(fixedLast_tables m' b' _ e').1]
    simp only [h1]
    rfl
  · show _ = (mapperPowerOn m' (bare s.cart)).chrWin
    rw [(fixedLast_tables m' b' _ e').2]; exact h2
  · exact (hr _).symm


theorem uxromWrite_tables (s : State) (r v : Byte) (hm : s.mapper = .uxrom r) (h : TablesFollow s)
    : TablesFollow (prg16Low (bankNo v) { s with mapper := .uxrom v }) :=
  prg16Low_tables s (.uxrom r) (.uxrom v) (bankNo r) (bankNo v) hm h (fun _ => rfl) (fun _ => rfl) (fun _ => rfl)

theorem camericaWrite_tables (s : State) (r v : Byte) (hm : s.mapper = .camerica r) (h : TablesFollow s)
    : TablesFollow (prg16Low (bankNo (v &&& 0x0F)) { s with mapper := .camerica v }) :=
  prg16Low_tables s (.camerica r) (.camerica v) (bankNo (r &&& 0x0F)) (bankNo (v &&& 0x0F)) hm h (fun _ => rfl)
      (fun _ => rfl) (fun _ => rfl)

theorem un1romWrite_tables (s : State) (r v : Byte) (hm : s.mapper = .un1rom r) (h : TablesFollow s)
    : TablesFollow (prg16Low (bankNo ((v >>> 2) &&& 0x07)) { s with mapper := .un1rom v }) :=
  prg16Low_tables s (.un1rom r) (.un1rom v) (bankNo ((r >>> 2) &&& 0x07)) (bankNo ((v >>> 2) &&& 0x07)) hm h
      (fun _ => rfl) (fun _ => rfl) (fun _ => rfl)

theorem unromFixFirst_prg (r c) : (mapperPowerOn (.unromFixFirst r) (bare c)).prgWin = #v[bankOffset
    (bare c).prgLen 0x4000 0 0, bankOffset (bare c).prgLen 0x4000 0x2000 0, bankOffset (bare c).prgLen 0x4000 0
    (bankNo (r &&& 0x07)), bankOffset (bare c).prgLen 0x4000 0x2000 (bankNo (r &&& 0x07))] := by
  unfold mapperPowerOn
  simp only [prg16Both_eq]
  rfl

theorem prg16High_tables (s : State) (m' : Mapper) (b b' : Int) (h1 : s.prgWin = #v[bankOffset
    (bare s.cart).prgLen 0x4000 0 0, bankOffset (bare s.cart).prgLen 0x4000 0x2000 0, bankOffset
    (bare s.cart).prgLen 0x4000 0 b, bankOffset (bare s.cart).prgLen 0x4000 0x2000 b])
    (h2 : s.chrWin = (mapperPowerOn m' (bare s.cart)).chrWin)
    (e : (mapperPowerOn m' (bare s.cart)).prgWin = #v[bankOffset (bare s.cart).prgLen 0x4000 0 0, bankOffset
        (bare s.cart).prgLen 0x4000 0x2000 0, bankOffset (bare s.cart).prgLen 0x4000 0 b', bankOffset
        (bare s.cart).prgLen 0x4000 0x2000 b'])
    (hr : ∀ x, Mapper.mirroringOver m' x = x) : TablesFollow (prg16High b' { s with mapper := m' }) := by
    rw [prg16High_set]
    refine ⟨?_, h2, (hr _).symm⟩
    show _ = (mapperPowerOn m' (bare s.cart)).prgWin
    rw [e]
    simp only [h1]
    rfl

theorem unromFixFirst_chr (r v : Byte) (c) : (mapperPowerOn (.unromFixFirst r) (bare c)).chrWin = (mapperPowerOn
    (.unromFixFirst v) (bare c)).chrWin :=
  (show _ = (chr8 0 (bare c)).chrWin from rfl).trans rfl

theorem axrom_chr (r v : Byte) (c) : (mapperPowerOn (.axrom r) (bare c)).chrWin = (mapperPowerOn (.axrom v)
    (bare c)).chrWin :=
  (show _ = (chr8 0 (bare c)).chrWin from rfl).trans rfl

theorem cnrom_prg (r v : Byte) (c) : (mapperPowerOn (.cnrom r) (bare c)).prgWin = (mapperPowerOn (.cnrom v)
    (bare c)).prgWin :=
  (show _ = (prg32 0 (bare c)).prgWin from rfl).trans rfl

theorem unromFixFirstWrite_tables (s : State) (r v : Byte) (hm : s.mapper = .unromFixFirst r)
    (h : TablesFollow s) : TablesFollow (prg16High (bankNo (v &&& 0x07))
    { s with mapper := .unromFixFirst v }) := by
    have h1 := h.1; have h2 := h.2.1
    rw [hm] at h1 h2
    rw [unromFixFirst_prg] at h1
    exact prg16High_tables s (.unromFixFirst v) (bankNo (r &&& 0x07)) (bankNo (v &&& 0x07)) h1 (h2.trans
        (unromFixFirst_chr r v s.cart)) (unromFixFirst_prg v s.cart) (fun _ => rfl)

theorem mmc3_tables (r q : Mmc3) (hc : q.bankSelect = r.bankSelect) (h0 : q.r = r.r) (c : Cartridge) :
    (mapperPowerOn (.mmc3 q) (bare c)).prgWin = (mapperPowerOn (.mmc3 r) (bare c)).prgWin ∧ (mapperPowerOn
        (.mmc3 q) (bare c)).chrWin = (mapperPowerOn (.mmc3 r) (bare c)).chrWin := by
  obtain ⟨sh, ct, co, c0, c1⟩ := r
  obtain ⟨sh', ct', co', c0', c1'⟩ := q
  simp only at hc h0
  subst hc h0
  unfold mapperPowerOn mmc3Install mmc3Recompute mmc3Chr mmc3Prg
  simp only
  split <;> split <;> exact ⟨rfl, rfl⟩

theorem mmc1Registers_tables (s : State) (r q : Mmc1) (hm : s.mapper = .mmc1 r) (h : TablesFollow s)
    (hc : q.control = r.control) (h0 : q.chr0 = r.chr0) (h1 : q.chr1 = r.chr1) (hp : q.prg = r.prg)
    : TablesFollow { s with mapper := .mmc1 q } := by
  refine tables_sameRegisters _ hm (.mmc1 q) _ h rfl rfl rfl rfl (mmc1_tables r q hc h0 h1 hp) ?_
  have := h.2.2; rw [hm] at this; show _ = mmc1Mirroring q.control; rw [hc]; exact this

theorem mmc3Registers_tables (s : State) (r q : Mmc3) (x : Bool) (hm : s.mapper = .mmc3 r) (h : TablesFollow s)
    (hc : q.bankSelect = r.bankSelect) (h0 : q.r = r.r) : TablesFollow
    { s with mapper := .mmc3 q, irqPending := x } :=
  tables_sameRegisters _ hm (.mmc3 q) _ h rfl rfl rfl rfl (mmc3_tables r q hc h0) rfl

theorem powerOn_tables (m : Mapper) (u v : State) (n : Byte) (hv : mapperPowerOn m u = v) (hn : n = m.number)
    : TablesFollow v ∧ v.mapper.number = n := by
  subst hv; subst hn; exact ⟨mapperPowerOn_tables m u, by rw [mapperPowerOn_eq]⟩

theorem mapperPowerOn_mmc2 (q u) : mapperPowerOn (.mmc2 q) u = mmc2Install q u :=
    by unfold mapperPowerOn mmc2Install; rfl

theorem mapperPowerOn_mmc4 (q u) : mapperPowerOn (.mmc4 q) u = mmc4Install q u :=
    by unfold mapperPowerOn mmc4Install; rfl

/-- A register write keeps the tables following the registers, and the variant (R120). -/
theorem mapperWrite_tables (a : Word) (v : Byte) (s : State) (h : TablesFollow s) : TablesFollow
    (mapperWrite a v s) ∧ (mapperWrite a v s).mapper.number = s.mapper.number := by
  have two : ∀ m : Mapper, ∀ u : State, TablesFollow (mapperPowerOn m u) ∧
      (mapperPowerOn m u).mapper.number = m.number := fun m u => ⟨mapperPowerOn_tables m u,
      by rw [mapperPowerOn_eq]⟩
  unfold mapperWrite
  split
  case h_1 hm => exact ⟨h, rfl⟩
  case h_2 r hm =>
    unfold mmc1Write
    split
    · exact ⟨h, rfl⟩
    · simp only
      split
      · rw [hm]; exact two (.mmc1 _) s
      · split
        · rw [hm]; exact two (.mmc1 _) s
        · exact ⟨mmc1Registers_tables s r _ hm h rfl rfl rfl rfl, by rw [hm]; rfl⟩
  case h_3 r hm =>
    exact ⟨uxromWrite_tables s r v hm h, by rw [hm]; rfl⟩
  case h_4 r hm =>
    refine ⟨?_, by rw [hm]; rfl⟩
    have h1 := h.1
    rw [hm] at h1
    exact ⟨h1.trans (cnrom_prg r v s.cart), rfl, rfl⟩
  case h_5 r hm =>
    unfold mmc3Write
    split
    · rw [hm]; exact two (.mmc3 _) s
    · rw [hm]; exact two (.mmc3 _) s
    · exact ⟨⟨h.1, h.2.1, by show _ = Mapper.mirroringOver s.mapper _; rw [hm]; rfl⟩, by rw [hm]⟩
    · exact ⟨h, by rw [hm]⟩
    · exact ⟨mmc3Registers_tables s r _ s.irqPending hm h rfl rfl, by rw [hm]; rfl⟩
    · exact ⟨mmc3Registers_tables s r _ s.irqPending hm h rfl rfl, by rw [hm]; rfl⟩
    · exact ⟨mmc3Registers_tables s r _ false hm h rfl rfl, by rw [hm]; rfl⟩
    · exact ⟨mmc3Registers_tables s r _ s.irqPending hm h rfl rfl, by rw [hm]; rfl⟩
  case h_6 r hm =>
    refine ⟨?_, by rw [hm]; rfl⟩
    have h2 := h.2.1; rw [hm] at h2
    exact ⟨rfl, h2.trans (axrom_chr r v s.cart), rfl⟩
  case h_7 r hm =>
    unfold mmc2Write
    split
    · exact ⟨h, by rw [hm]⟩
    · exact powerOn_tables (.mmc2 _) _ _ _ (mapperPowerOn_mmc2 _ _) (by rw [hm]; rfl)
  case h_8 r hm =>
    unfold mmc4Write
    split
    · exact ⟨h, by rw [hm]⟩
    · exact powerOn_tables (.mmc4 _) _ _ _ (mapperPowerOn_mmc4 _ _) (by rw [hm]; rfl)
  case h_9 r hm => exact ⟨⟨rfl, rfl, rfl⟩, by rw [hm]; rfl⟩
  case h_10 r hm => exact ⟨⟨rfl, rfl, rfl⟩, by rw [hm]; rfl⟩
  case h_11 r hm =>
    split
    · exact ⟨camericaWrite_tables s r v hm h, by rw [hm]; rfl⟩
    · exact ⟨h, by rw [hm]⟩
  case h_12 r hm =>
    exact ⟨un1romWrite_tables s r v hm h, by rw [hm]; rfl⟩
  case h_13 r hm => exact ⟨unromFixFirstWrite_tables s r v hm h, by rw [hm]; rfl⟩
  case h_14 r hm =>
    unfold namco108Write
    split
    · refine ⟨tables_sameRegisters _ hm _ _ h rfl rfl rfl rfl ?_ rfl, by rw [hm]; rfl⟩
      intro c; exact ⟨rfl, rfl⟩
    · rw [hm]; exact two (.namco108 _) s
    · exact ⟨h, by rw [hm]⟩

/-- So does a bus write. -/
theorem memWrite_tables (a : Word) (v : Byte) (s : State) (h : TablesFollow s) : TablesFollow (memWrite a v s) ∧
    (memWrite a v s).mapper.number = s.mapper.number := by
  rcases Nat.lt_or_ge a.toNat 0x8000 with h3 | h3
  · rw [memWrite_low v s h3]; exact ⟨tables_congr h rfl rfl rfl rfl rfl, rfl⟩
  · rw [memWrite_mapper v s h3]
    exact mapperWrite_tables a v _ (tables_congr h rfl rfl rfl rfl rfl)

/-- A power-on puts every offset in its array. -/
theorem mapperPowerOn_windowsOk (m s) (h : 1 ≤ s.cart.prgUnits) : (mapperPowerOn m s).WindowsOk := by
  obtain ⟨u, hu⟩ : ∃ u : State, u = { s with prgWin := Vector.replicate 4 0, chrWin := Vector.replicate 8 0 } :=
    ⟨_, rfl⟩
  have hz : u.WindowsOk := by
    subst hu
    constructor
    · intro w; fin_cases w <;> (simp [State.prgLen]; omega)
    · intro w; fin_cases w <;> (simp [State.chrLen]; split <;> omega)
  have e : mapperPowerOn m s = mapperPowerOn m u := by
    rw [mapperPowerOn_eq m s, mapperPowerOn_eq m u, hu]
  rw [e]
  have hm : ∀ m mir, ({ u with mapper := m, mirroring := mir } : State).WindowsOk := fun _ _ => hz
  unfold mapperPowerOn
  cases m <;> simp only
  · exact chr8_windowsOk _ _ (prg32_windowsOk _ _ (hm _ u.mirroring))
  · exact mmc1Install_windowsOk _ _ (hm _ u.mirroring)
  · exact chr8_windowsOk _ _ (prg16High_windowsOk _ _ (prg16Low_windowsOk _ _ (hm _ u.mirroring)))
  · exact chr8_windowsOk _ _ (prg32_windowsOk _ _ (hm _ u.mirroring))
  · exact mmc3Install_windowsOk _ _ (hm _ u.mirroring)
  · exact chr8_windowsOk _ _ (prg32_windowsOk _ _ (hm _ _))
  · exact mmc2Install_windowsOk _ _ (hm _ u.mirroring)
  · exact mmc4Install_windowsOk _ _ (hm _ u.mirroring)
  · exact chr8_windowsOk _ _ (prg32_windowsOk _ _ (hm _ u.mirroring))
  · exact chr8_windowsOk _ _ (prg32_windowsOk _ _ (hm _ u.mirroring))
  · exact chr8_windowsOk _ _ (prg16High_windowsOk _ _ (prg16Low_windowsOk _ _ (hm _ u.mirroring)))
  · exact chr8_windowsOk _ _ (prg16High_windowsOk _ _ (prg16Low_windowsOk _ _ (hm _ u.mirroring)))
  · exact chr8_windowsOk _ _ (prg16High_windowsOk _ _ (prg16Low_windowsOk _ _ (hm _ u.mirroring)))
  · exact namco108Install_windowsOk _ _ (hm _ u.mirroring)

/-- A CHR read's side effect keeps the tables following the registers (R187). -/
theorem chrReadEffect_tables (a : PpuAddr) (s : State) (h : TablesFollow s) : TablesFollow (chrReadEffect a s) := by
  unfold chrReadEffect
  split
  · split
    · exact h
    · exact (powerOn_tables (.mmc2 _) _ _ _ (mapperPowerOn_mmc2 _ _) rfl).1
  · split
    · exact h
    · exact (powerOn_tables (.mmc4 _) _ _ _ (mapperPowerOn_mmc4 _ _) rfl).1
  · exact h

end Sys2Proof.Machine
end

