-- ==== Sys2Proof/Laws/Cartridge.lean ====
section
/-!
SUPPORT. The header's fields as numbers, the variants of the mapper numbers, and the power-on construction.
-/
namespace Sys2Proof.Machine

theorem headerMapper_toNat (image : List Byte) : (headerMapper image).toNat = (image.getD 7 0).toNat / 16 * 16 +
    (image.getD 6 0).toNat / 16 := by
  unfold headerMapper
  generalize image.getD 7 0 = p
  generalize image.getD 6 0 = q
  have hp : ∀ p : Byte, (p &&& 0xF0).toNat = (p.toNat / 16) <<< 4 := by decide
  have hq : (q >>> 4).toNat = q.toNat / 16 := by simp [Nat.shiftRight_eq_div_pow]
  have h16 : q.toNat / 16 < 2 ^ 4 := by have := q.isLt; omega
  rw [BitVec.toNat_or, hp, hq, ← Nat.shiftLeft_add_eq_or_of_lt h16, Nat.shiftLeft_eq]

theorem headerPrgStart_eq (image : List Byte) : headerPrgStart image = 16 + (if
    (image.getD 6 0).toNat / 4 % 2 = 1 then 512 else 0) := by
  unfold headerPrgStart
  generalize image.getD 6 0 = q
  revert q; decide

theorem mapperOfNumber_some (n : Nat) (h : n ∈ [0, 1, 2, 3, 4, 7, 9, 10, 11, 66, 71, 94, 180, 206]) : ∃ m,
    mapperOfNumber n = some m := by
  simp only [List.mem_cons, List.not_mem_nil, or_false] at h
  rcases h with rfl | rfl | rfl | rfl | rfl | rfl | rfl | rfl | rfl | rfl | rfl | rfl | rfl | rfl <;> exact ⟨_, rfl⟩

theorem mapperOfNumber_none (n : Nat) (h : n ∉ [0, 1, 2, 3, 4, 7, 9, 10, 11, 66, 71, 94, 180, 206])
    : mapperOfNumber n = none := by
  simp only [List.mem_cons, List.not_mem_nil, or_false, not_or] at h
  unfold mapperOfNumber
  split <;> first | rfl | omega

theorem mapperOfNumber_number (n : Nat) (m) (h : mapperOfNumber n = some m) : m.number.toNat = n := by
  unfold mapperOfNumber at h
  split at h <;> cases h <;> rfl

theorem magic_iff (image : List Byte) (h : ¬ image.length < 16) : image.take 4 = cartridgeMagic ↔
    ((image.getD 0 0).toNat = 0x4E ∧ (image.getD 1 0).toNat = 0x45 ∧ (image.getD 2 0).toNat = 0x53 ∧
    (image.getD 3 0).toNat = 0x1A) := by
  match image with
  | [] => simp at h
  | [_] => simp at h
  | [_, _] => simp at h
  | [_, _, _] => simp at h
  | b0 :: b1 :: b2 :: b3 :: r =>
    simp only [cartridgeMagic, List.take_succ_cons, List.take_zero, List.cons.injEq, and_true]
    have e : ∀ (b c : Byte), b = c ↔ b.toNat = c.toNat := fun b c => BitVec.toNat_inj.symm
    rw [e b0, e b1, e b2, e b3]
    rfl

theorem Memory.fits_ofBytes (vs : List Byte) (n : Nat) (h : vs.length ≤ n) : (Memory.ofBytes vs).Fits n :=
  ⟨Memory.wf_ofBytes _, Memory.below_mono (Memory.below_ofBytes _) h⟩

theorem mapperOfNumber_mirroring (n m x) (h : mapperOfNumber n = some m) : Mapper.mirroringOver m x = x ∨ (∃ r,
    m = .axrom r ∧ Mapper.mirroringOver m x = .singleLower) ∨ (∃ r, m = .mmc1 r
    ∧ Mapper.mirroringOver m x = mmc1Mirroring r.control) := by
  unfold mapperOfNumber at h
  split at h <;> cases h <;> first | exact .inl rfl | exact .inr (.inl ⟨_, rfl, rfl⟩) | exact .inr (.inr ⟨_, rfl,
      rfl⟩)

/-- The power-on construction: the variant over the constructed state, and the reset vector read (R520). -/
theorem powerOn_eq (cart m init) : powerOn cart m init = let s := mapperPowerOn m (constructed cart m init)
  { s with
    pc := (s.peek 0xFFFD).pair (s.peek 0xFFFC), bus := [.read 0xFFFD (s.peek 0xFFFD), .read 0xFFFC
        (s.peek 0xFFFC)] } := by
  have hb : (mapperPowerOn m (constructed cart m init)).bus = [] := by rw [mapperPowerOn_eq]; rfl
  unfold powerOn readWord
  simp only [memRead]
  have : (recordRead resetVector ((mapperPowerOn m (constructed cart m init)).peek resetVector) (mapperPowerOn m
      (constructed cart m init))).peek (resetVector + 1) = (mapperPowerOn m
      (constructed cart m init)).peek 0xFFFD := by
    rw [peek_recordRead _ _ _ _ (by decide)]; rfl
  rw [this]
  unfold recordRead
  rw [hb]
  rfl

/-- `State.reset` is the power-on of the blank cartridge with every array zero (log entries 5 and 6). -/
theorem reset_eq_powerOn : State.reset = powerOn blankCartridge .nrom Init.zero := rfl

end Sys2Proof.Machine
end

