-- ==== Sys2Proof/Laws/Exec.lean ====
section
/-!
SUPPORT. What `exec` does, said once: the body of each operation, that `exec` of a supported row is `runInstr` of
its operation's body, and that `exec` of an unsupported row is the fault of R480.
-/
namespace Sys2Proof.Machine

/-- The body of each operation; an unsupported operation has none. -/
def opBody : Operation → Body
  | .brk => opBrk
  | .ora => opOra
  | .asl => opAsl
  | .php => opPhp
  | .bpl => opBpl
  | .clc => opClc
  | .jsr => opJsr
  | .and => opAnd
  | .bit => opBit
  | .rol => opRol
  | .plp => opPlp
  | .bmi => opBmi
  | .sec => opSec
  | .rti => opRti
  | .eor => opEor
  | .lsr => opLsr
  | .pha => opPha
  | .jmp => opJmp
  | .bvc => opBvc
  | .cli => opCli
  | .rts => opRts
  | .adc => opAdc
  | .ror => opRor
  | .pla => opPla
  | .bvs => opBvs
  | .sei => opSei
  | .sta => opSta
  | .sty => opSty
  | .stx => opStx
  | .dey => opDey
  | .txa => opTxa
  | .bcc => opBcc
  | .tya => opTya
  | .txs => opTxs
  | .ldy => opLdy
  | .lda => opLda
  | .ldx => opLdx
  | .tay => opTay
  | .tax => opTax
  | .bcs => opBcs
  | .clv => opClv
  | .tsx => opTsx
  | .cpy => opCpy
  | .cmp => opCmp
  | .dec => opDec
  | .iny => opIny
  | .dex => opDex
  | .bne => opBne
  | .cld => opCld
  | .cpx => opCpx
  | .sbc => opSbc
  | .inc => opInc
  | .inx => opInx
  | .nop => opNop
  | .beq => opBeq
  | .sed => opSed
  | .slo => opSlo
  | .anc => opAnc
  | .rla => opRla
  | .sre => opSre
  | .alr => opAlr
  | .rra => opRra
  | .arr => opArr
  | .sax => opSax
  | .lax => opLax
  | .dcp => opDcp
  | .axs => opAxs
  | .isc => opIsc
  | .jam => fun _ _ s => s
  | .xaa => fun _ _ s => s
  | .sha => fun _ _ s => s
  | .tas => fun _ _ s => s
  | .shy => fun _ _ s => s
  | .shx => fun _ _ s => s
  | .lxa => fun _ _ s => s
  | .las => fun _ _ s => s

/-- `exec` of a supported row: resolve, charge, run the body of its operation. -/
theorem exec_eq_runInstr (i : Instr) (h : i.cls ≠ .unsupported) (s : State) :
    exec i s = runInstr i.opcode i.operand (opBody i.operation) s := by
  cases i
  all_goals first
    | (dsimp only [Instr.operation, Instr.opcode, Instr.operand, exec]; rfl)
    | exact absurd (by dsimp only [Instr.cls, Instr.opcode]; rfl) h

/-- `exec` of an unsupported row (R445 to R452). -/
theorem exec_unsupported (i : Instr) (h : i.cls = .unsupported) (s : State) :
    exec i s = .next (raiseUnsupported i.opcode s) := by
  cases i
  all_goals first
    | exact nomatch h.symm.trans (show Instr.cls _ = RowClass.official by dsimp only [Instr.cls, Instr.opcode]; rfl)
    | exact nomatch h.symm.trans (show Instr.cls _ = RowClass.unofficial by dsimp only [Instr.cls, Instr.opcode]; rfl)
    | (dsimp only [Instr.opcode, exec]; rfl)

end Sys2Proof.Machine

namespace Sys2Proof
open Sys2Proof.Machine

/-- The mode of an instruction's operand is its row's. -/
theorem Instr.operand_mode (i : Instr) : i.operand.mode = (desc i.opcode).mode := by
  cases i
  all_goals
    dsimp only [Instr.operand, Instr.opcode, Operand.mode]
    rfl

/-- A word is its high byte above its low byte. -/
theorem Word.pair_hi_lo (w : Word) : w.hi.pair w.lo = w := by
  apply BitVec.eq_of_getLsbD_eq
  intro k hk
  simp only [Byte.pair, Word.hi, Word.lo, BitVec.getLsbD_append, BitVec.getLsbD_extractLsb']
  by_cases h : k < 8
  · simp [h]
  · simp [h, show k - 8 < 8 by omega, show 8 + (k - 8) = k by omega]

/-- An instruction is what its opcode and its operand bytes decode to. -/
theorem Instr.decode3_bytes (i : Instr) :
    decode3 i.opcode (i.operand.bytes.getD 0 0) (i.operand.bytes.getD 1 0) = i := by
  cases i
  all_goals
    dsimp only [Instr.opcode, Instr.operand, Operand.bytes]
    first | rfl | exact congrArg _ (Word.pair_hi_lo _)

/-- Every row an instruction rule lists has, in the table, the rule's operation and the listed mode. -/
theorem Operation.rows_desc (op : Operation) : ∀ p ∈ op.rows, (desc p.1).operation = op ∧ (desc p.1).mode = p.2 := by
  cases op <;> decide

/-- The row of a rule has the rule's operation. -/
theorem Instr.Is.operation {i : Instr} {op : Operation} (h : i.Is op) : i.operation = op :=
  (Operation.rows_desc op _ h).1

/-- The operations of the unsupported rows. -/
theorem Instr.unsupported_operation (i : Instr) (h : i.cls = .unsupported) :
    i.operation ∈ [Operation.jam, .xaa, .sha, .tas, .shy, .shx, .lxa, .las] := by
  cases i
  all_goals first
    | exact nomatch h.symm.trans (show Instr.cls _ = RowClass.official by dsimp only [Instr.cls, Instr.opcode]; rfl)
    | exact nomatch h.symm.trans (show Instr.cls _ = RowClass.unofficial by dsimp only [Instr.cls, Instr.opcode]; rfl)
    | (dsimp only [Instr.operation, Instr.opcode]; decide)

end Sys2Proof
end

