-- ==== Sys2Proof/Laws/Decode.lean ====
section
/-!
SUPPORT. The decoder and the encoder, said once for all 256 opcode bytes: what the table gives keeps its opcode byte
and its operand bytes, and does not look at bytes past its row's length.
-/
namespace Sys2Proof

theorem Byte.lo_pair (h l : Byte) : (h.pair l).lo = l := by
  apply BitVec.eq_of_getLsbD_eq
  intro k hk
  simp only [Byte.pair, Word.lo, BitVec.getLsbD_append, BitVec.getLsbD_extractLsb']
  simp [hk]

theorem Byte.hi_pair (h l : Byte) : (h.pair l).hi = h := by
  apply BitVec.eq_of_getLsbD_eq
  intro k hk
  simp only [Byte.pair, Word.hi, BitVec.getLsbD_append, BitVec.getLsbD_extractLsb']
  simp [hk]

/-- An instruction is as long as its row says (R230). -/
theorem Mode.length_cases (m : Mode) : m.length = 1 ∨ m.length = 2 ∨ m.length = 3 := by
  cases m <;> simp [Mode.length]

theorem Operand.bytes_length (o : Operand) : o.bytes.length + 1 = o.mode.length := by cases o <;> rfl

theorem Instr.bytes_length (i : Instr) : i.operand.bytes.length + 1 = (desc i.opcode).mode.length := by
  rw [Operand.bytes_length, Instr.operand_mode]

/-- The row of a numeral opcode byte. -/
theorem decode3_row (n : Fin 256) (b1 b2 : Byte) :
    (decode3 (BitVec.ofFin n) b1 b2).opcode = BitVec.ofFin n ∧
    (decode3 (BitVec.ofFin n) b1 b2).operand.bytes = [b1, b2].take ((desc (BitVec.ofFin n)).mode.length - 1) := by
  fin_cases n
  all_goals
    refine ⟨rfl, ?_⟩
    first
      | rfl
      | exact congrArg₂ (fun a b => [a, b]) (Byte.lo_pair b2 b1) (Byte.hi_pair b2 b1)

/-- What an opcode byte decodes to has that opcode byte. -/
theorem decode3_opcode (op b1 b2 : Byte) : (decode3 op b1 b2).opcode = op := (decode3_row op.toFin b1 b2).1

/-- What an opcode byte decodes to has the bytes after it as its operand bytes. -/
theorem decode3_operand (op b1 b2 : Byte) :
    (decode3 op b1 b2).operand.bytes = [b1, b2].take ((desc op).mode.length - 1) := (decode3_row op.toFin b1 b2).2

/-- A row of two bytes does not look at a third one. -/
theorem decode3_two {op : Byte} (h : (desc op).mode.length = 2) (b1 b2 : Byte) :
    decode3 op b1 b2 = decode3 op b1 0 := by
  have e := (decode3 op b1 b2).decode3_bytes
  rw [decode3_opcode, decode3_operand, h] at e
  exact e.symm

/-- A row of one byte does not look at the bytes after it. -/
theorem decode3_one {op : Byte} (h : (desc op).mode.length = 1) (b1 b2 : Byte) :
    decode3 op b1 b2 = decode3 op 0 0 := by
  have e := (decode3 op b1 b2).decode3_bytes
  rw [decode3_opcode, decode3_operand, h] at e
  exact e.symm

/-- Where three bytes decode, they decode to the row of the first. -/
theorem decode_three {b0 b1 b2 : Byte} {i : Instr} {rest : List Byte} (h : decode [b0, b1, b2] = .ok (i, rest)) :
    i = decode3 b0 b1 b2 ∧ i.opcode = b0 := by
  unfold decode at h
  rcases (desc b0).mode.length_cases with hl | hl | hl
  all_goals
    simp only [hl] at h
    cases h
  · exact ⟨(decode3_one hl _ _).symm, decode3_opcode _ _ _⟩
  · exact ⟨(decode3_two hl _ _).symm, decode3_opcode _ _ _⟩
  · exact ⟨rfl, decode3_opcode _ _ _⟩

end Sys2Proof
end

