-- ==== Sys2Proof/Laws/Fetch.lean ====
section
/-!
SUPPORT. The fetch, said once: it moves PC, puts its reads on the bus record and changes nothing else; an active
session with no interrupt to take steps by fetching.
-/
namespace Sys2Proof.Machine

/-- `t` is `s` but for PC, the bus record and the number of draws. -/
def FetchOnly (s t : State) : Prop := t = { s with pc := t.pc, bus := t.bus, draws := t.draws }

theorem FetchOnly.refl (s : State) : FetchOnly s s := rfl

theorem FetchOnly.trans {s t u : State} (h : FetchOnly s t) (h' : FetchOnly t u) : FetchOnly s u := by
  unfold FetchOnly at *; rw [h', h]

/-- `NextByte()` (R16). -/
theorem nextByte_snd (s : State) : (nextByte s).2 = { s with
    pc := s.pc + 1
    bus := .read s.pc (s.peek s.pc) :: s.bus
    draws := s.draws + bit (oracleAddr s.pc) } := rfl

theorem nextByte_fetchOnly (s : State) : FetchOnly s (nextByte s).2 := rfl

theorem setPc_fetchOnly (w : Word) (s : State) : FetchOnly s { s with pc := w } := rfl

/-- Everything the fetch can touch. -/
theorem afterFetch_only (d : Desc) (s : State) : FetchOnly s (afterFetch d s) := by
  unfold afterFetch
  split
  · exact nextByte_fetchOnly s
  all_goals
    split
    all_goals first
      | exact nextByte_fetchOnly s
      | exact (nextByte_fetchOnly s).trans (nextByte_fetchOnly _)
      | exact (nextByte_fetchOnly s).trans (setPc_fetchOnly _ _)

/-- What is fetched has the opcode that PC points at (R260). -/
theorem fetchInstr_opcode (s : State) : (fetchInstr s).opcode = s.peek s.pc := decode3_opcode _ _ _

/-- A session that is active and has no interrupt to take steps by fetching (R260). -/
theorem step_fetch {s : State} (ha : s.Active) (hn : s.NoInterrupt) :
    step s = exec (fetchInstr s) (afterFetch (desc (fetchInstr s).opcode) s) := by
  unfold step
  rw [ha.1, ha.2, hn.1]
  rcases hn.2 with h | h <;> simp [h, fetch]

/-- The rows of the operations that fault are unsupported rows (R234). -/
theorem cls_of_faulting {i : Instr} (h : i.IsOneOf [.jam, .xaa, .lxa, .sha, .shy, .shx, .tas, .las]) :
    i.cls = .unsupported := by
  obtain ⟨op, hop, h⟩ := h
  unfold Instr.cls
  revert h
  unfold Instr.Is
  generalize i.opcode = b
  generalize i.operand.mode = m
  intro h
  have all : ∀ op ∈ [Operation.jam, .xaa, .lxa, .sha, .shy, .shx, .tas, .las], ∀ p ∈ op.rows,
      (desc p.1).cls = .unsupported := by decide
  exact all op hop _ h

end Sys2Proof.Machine
end

