-- ==== Sys2Proof/Laws/Step.lean ====
section
/-!
SUPPORT. What a step can do, said once: an operation is a chain of bus reads, bus writes and changes of the
registers (`Acts`); a step is a chain of these, of changes of the CPU's other fields and, for an interrupt entry, of
the clearing of its latch (`Moves`). An invariant of the block needs to be checked for these four moves only.
-/
namespace Sys2Proof.Machine

/-- A chain of the moves an operation is made of: bus reads, bus writes and changes of the registers. -/
inductive Acts : State → State → Prop where
  /-- nothing -/
  | refl (s : State) : Acts s s
  /-- the registers and flags change -/
  | cpu {s u : State} (t : State)
      (h : t = { u with a := t.a, x := t.x, y := t.y, sp := t.sp, pc := t.pc, flags := t.flags })
      (m : Acts s u) : Acts s t
  /-- a bus read -/
  | read {s u : State} (a : Word) (v : Byte) (m : Acts s u) : Acts s (recordRead a v u)
  /-- a bus write -/
  | write {s u : State} (a : Word) (v : Byte) (m : Acts s u) : Acts s (memWrite a v u)

theorem Acts.trans {s t u : State} (h : Acts s t) (h' : Acts t u) : Acts s u := by
  induction h' with
  | refl => exact h
  | cpu t e _ ih => exact .cpu t e ih
  | read a v _ ih => exact .read a v ih
  | write a v _ ih => exact .write a v ih

/-- What an operation leaves alone: the scratch, the cost, the session, the NMI latch, the cartridge and the
picture unit's memories; the IRQ latch can only be cleared; the bus record grows at its end and the number of
draws by the oracle reads among its new accesses. -/
theorem Acts.frame {s t : State} (m : Acts s t) :
    t.scratch = s.scratch ∧ t.owed = s.owed ∧ t.status = s.status ∧ t.cancelled = s.cancelled ∧
    t.nmiPending = s.nmiPending ∧ t.cart = s.cart ∧ t.vram = s.vram ∧ t.chrRam = s.chrRam ∧
    ∃ new : List BusAccess, t.bus = new ++ s.bus ∧ t.draws = s.draws + new.countP BusAccess.isDraw := by
  induction m with
  | refl => exact ⟨rfl, rfl, rfl, rfl, rfl, rfl, rfl, rfl, [], rfl, rfl⟩
  | cpu t e _ ih => rw [e]; exact ih
  | read a v _ ih =>
    obtain ⟨h1, h2, h3, h4, h5, h6, h7, h8, new, hb, hd⟩ := ih
    refine ⟨h1, h2, h3, h4, h5, h6, h7, h8, .read a v :: new, ?_, ?_⟩
    · simp [hb]
    · rw [recordRead_draws, hd, List.countP_cons]
      cases h : oracleAddr a <;> simp [BusAccess.isDraw, bit, h, Nat.add_assoc]
  | write a v _ ih =>
    obtain ⟨h1, h2, h3, h4, h5, h6, h7, h8, new, hb, hd⟩ := ih
    refine ⟨by simpa using h1, by simpa using h2, by simpa using h3, by simpa using h4, by simpa using h5,
      by simpa using h6, by simpa using h7, by simpa using h8, .write a v :: new, ?_, ?_⟩
    · simp [hb]
    · rw [memWrite_draws, hd, List.countP_cons]
      simp [BusAccess.isDraw]

theorem Acts.setPc {s u : State} (m : Acts s u) (w : Word) : Acts s { u with pc := w } := .cpu _ rfl m
theorem Acts.setSp {s u : State} (m : Acts s u) (v : Byte) : Acts s { u with sp := v } := .cpu _ rfl m
theorem Acts.setFlags {s u : State} (m : Acts s u) (f : Flags) : Acts s { u with flags := f } := .cpu _ rfl m

/-- A chain of the moves a step is made of. -/
inductive Moves : State → State → Prop where
  /-- nothing -/
  | refl (s : State) : Moves s s
  /-- the CPU's own registers change -/
  | cpu {s u : State} (t : State)
      (h : t = { u with
        a := t.a, x := t.x, y := t.y, sp := t.sp, pc := t.pc, flags := t.flags, scratch := t.scratch,
        owed := t.owed, status := t.status }) (m : Moves s u) : Moves s t
  /-- a bus read -/
  | read {s u : State} (a : Word) (v : Byte) (m : Moves s u) : Moves s (recordRead a v u)
  /-- a bus write -/
  | write {s u : State} (a : Word) (v : Byte) (m : Moves s u) : Moves s (memWrite a v u)
  /-- the latch of an interrupt is cleared -/
  | clear {s u : State} (k : Interrupt) (m : Moves s u) : Moves s (k.clear u)

theorem Moves.trans {s t u : State} (h : Moves s t) (h' : Moves t u) : Moves s u := by
  induction h' with
  | refl => exact h
  | cpu t e _ ih => exact .cpu t e ih
  | read a v _ ih => exact .read a v ih
  | write a v _ ih => exact .write a v ih
  | clear k _ ih => exact .clear k ih

/-- A property that the four moves keep holds after a chain of them. -/
theorem Moves.keeps {P : State → Prop}
    (hcpu : ∀ u t : State, t = { u with
        a := t.a, x := t.x, y := t.y, sp := t.sp, pc := t.pc, flags := t.flags, scratch := t.scratch,
        owed := t.owed, status := t.status } → P u → P t)
    (hread : ∀ a v u, P u → P (recordRead a v u)) (hwrite : ∀ a v u, P u → P (memWrite a v u))
    (hclear : ∀ (k : Interrupt) u, P u → P (k.clear u)) {s t : State} (m : Moves s t) (hs : P s) : P t := by
  induction m with
  | refl => exact hs
  | cpu t e _ ih => exact hcpu _ t e ih
  | read a v _ ih => exact hread a v _ ih
  | write a v _ ih => exact hwrite a v _ ih
  | clear k _ ih => exact hclear k _ ih

theorem Acts.moves {s t : State} (m : Acts s t) : Moves s t := by
  induction m with
  | refl => exact .refl _
  | cpu t e _ ih => exact .cpu t (by rw [e]) ih
  | read a v _ ih => exact .read a v ih
  | write a v _ ih => exact .write a v ih

theorem Moves.setPc {s u : State} (m : Moves s u) (w : Word) : Moves s { u with pc := w } := .cpu _ rfl m
theorem Moves.setSp {s u : State} (m : Moves s u) (v : Byte) : Moves s { u with sp := v } := .cpu _ rfl m
theorem Moves.setFlags {s u : State} (m : Moves s u) (f : Flags) : Moves s { u with flags := f } := .cpu _ rfl m
theorem Moves.setOwed {s u : State} (m : Moves s u) (n : Nat) : Moves s { u with owed := n } := .cpu _ rfl m

/-! ### The operations -/

theorem memRead_acts (a : Word) (s : State) : Acts s (memRead a s).2 := .read a _ (.refl s)

theorem readWord_acts (a : Word) (s : State) : Acts s (readWord a s).2 := .read _ _ (.read _ _ (.refl s))

theorem readPointer_acts (l h : Word) (s : State) : Acts s (readPointer l h s).2 :=
  .read _ _ (.read _ _ (.refl s))

theorem nextByte_acts (s : State) : Acts s (nextByte s).2 := .cpu _ rfl (.read _ _ (.refl s))

theorem push_acts (v : Byte) (s : State) : Acts s (push v s) :=
  (Acts.write (stackAddr s.sp) v (.refl s)).setSp _

theorem push16_acts (w : Word) (s : State) : Acts s (push16 w s) := (push_acts _ s).trans (push_acts _ _)

theorem pull_acts (s : State) : Acts s (pull s).2 := .read _ _ (.cpu _ rfl (.refl s))

theorem pull16_acts (s : State) : Acts s (pull16 s).2 := (pull_acts s).trans (pull_acts _)

theorem setA_acts (v : Byte) (s : State) : Acts s (setA v s) := .cpu _ rfl (.refl s)
theorem setX_acts (v : Byte) (s : State) : Acts s (setX v s) := .cpu _ rfl (.refl s)
theorem setY_acts (v : Byte) (s : State) : Acts s (setY v s) := .cpu _ rfl (.refl s)
theorem setZN_acts (v : Byte) (s : State) : Acts s (setZN v s) := .cpu _ rfl (.refl s)
theorem setC_acts (b : Bool) (s : State) : Acts s (setC b s) := .cpu _ rfl (.refl s)
theorem addC_acts (m : Byte) (s : State) : Acts s (addC m s) := .cpu (u := s) _ rfl (.refl s)
theorem subC_acts (m : Byte) (s : State) : Acts s (subC m s) := addC_acts _ s
theorem compare_acts (r m : Byte) (s : State) : Acts s (compare r m s) := .cpu _ rfl (.refl s)

theorem operandRead_acts (p : Place) (s : State) : Acts s (operandRead p s).2 := by
  cases p
  case inline v a => exact .read a v (.refl s)
  case mem a => exact memRead_acts a s
  all_goals exact .refl s

theorem operandWrite_acts (rmw : Bool) (p : Place) (old v : Byte) (s : State) :
    Acts s (operandWrite rmw p old v s) := by
  cases p
  case none => exact .refl s
  case acc => exact setA_acts v s
  all_goals
    cases rmw
    · exact .write _ v (.refl s)
    · exact .write _ v (.write _ old (.refl s))

theorem takeException_acts (w : Word) (b : Bool) (s : State) : Acts s (takeException w b s) :=
  (((push16_acts s.pc s).trans (push_acts (s.flags.pack b) _)).trans (readWord_acts w _)).setPc _

theorem interrupt_moves (k : Interrupt) (s : State) : Moves s (interrupt k s) :=
  .clear k ((takeException_acts k.vector false s).moves.setOwed _)

theorem returnFromInterrupt_acts (s : State) : Acts s (returnFromInterrupt s) :=
  (((pull_acts s).setFlags (Flags.unpack (pull s).1)).trans (pull16_acts _)).setPc _

theorem resolve_acts (o : Operand) (s : State) : Acts s (resolve o s).state := by
  cases o
  case indx z => exact readPointer_acts _ _ s
  case indy z => exact readPointer_acts _ _ s
  case ind w => exact readPointer_acts _ _ s
  all_goals exact .refl s

/-- A branch is the read of its offset and, where it is taken, a change of PC and one or two more cycles
(R380). -/
theorem branch_acts (cond : Flags → Bool) (d : Desc) (p : Place) (s : State) :
    ∃ u n, Acts s u ∧ branch cond d p s = { u with owed := u.owed + n } ∧ n ≤ 2 := by
  have hr := operandRead_acts p s
  unfold branch
  simp only
  split
  · refine ⟨{ (operandRead p s).2 with pc := p.address + (operandRead p s).1.sext + 1 },
      1 + bit (p.address.hi != (p.address + (operandRead p s).1.sext + 1).hi), hr.setPc _, ?_, ?_⟩
    · simp only [Nat.add_assoc]
    · unfold bit; split <;> omega
  · exact ⟨(operandRead p s).2, 0, hr, rfl, by omega⟩

/-- The eight branches. -/
def branchOps : List Operation := [.bpl, .bmi, .bvc, .bvs, .bcc, .bcs, .bne, .beq]

theorem brk_acts (d : Desc) (p : Place) (s : State) : Acts s (opBrk d p s) :=
  ((nextByte_acts s).trans (takeException_acts irqVector true _)).setFlags _

/-- The body of every operation is a chain of such moves and, for a branch, up to two more cycles (R267: "an operation touches memory only through" the
primitives). -/
theorem opBody_acts (op : Operation) (d : Desc) (p : Place) (s : State) :
    ∃ u n, Acts s u ∧ opBody op d p s = { u with owed := u.owed + n } ∧ n ≤ 2 ∧ (op ∉ branchOps → n = 0) := by
  have one : ∀ {t}, Acts s t → ∃ u n, Acts s u ∧ t = { u with owed := u.owed + n } ∧ n ≤ 2 ∧ (op ∉ branchOps → n = 0) :=
    fun {t} h => ⟨t, 0, h, rfl, by omega, fun _ => rfl⟩
  have br : op ∈ branchOps → ∀ cond, ∃ u n, Acts s u ∧ branch cond d p s = { u with owed := u.owed + n } ∧ n ≤ 2 ∧
      (op ∉ branchOps → n = 0) := fun h cond =>
    have ⟨u, n, h1, h2, h3⟩ := branch_acts cond d p s
    ⟨u, n, h1, h2, h3, fun hn => absurd h hn⟩
  cases op
  case brk => exact one (brk_acts d p s)
  case ora => exact one (((operandRead_acts p s)).trans (setA_acts _ _))
  case asl => exact one (((((operandRead_acts p s)).trans (operandWrite_acts _ p _ _ _)).trans (setC_acts _ _)).trans (setZN_acts _ _))
  case php => exact one (push_acts _ s)
  case bpl => exact br (by decide) (fun f => !f.n)
  case clc => exact one (.cpu (u := s) _ rfl (.refl s))
  case jsr => exact one ((push16_acts _ s).setPc _)
  case and => exact one (((operandRead_acts p s)).trans (setA_acts _ _))
  case bit => exact one (.cpu (u := (operandRead p s).2) _ rfl (operandRead_acts p s))
  case rol => exact one (((((operandRead_acts p s)).trans (operandWrite_acts _ p _ _ _)).trans (setC_acts _ _)).trans (setZN_acts _ _))
  case plp => exact one ((pull_acts s).setFlags _)
  case bmi => exact br (by decide) (fun f => f.n)
  case sec => exact one (.cpu (u := s) _ rfl (.refl s))
  case rti => exact one (returnFromInterrupt_acts s)
  case eor => exact one (((operandRead_acts p s)).trans (setA_acts _ _))
  case lsr => exact one (((((operandRead_acts p s)).trans (operandWrite_acts _ p _ _ _)).trans (setC_acts _ _)).trans (setZN_acts _ _))
  case pha => exact one (push_acts _ s)
  case jmp => exact one (.cpu (u := s) _ rfl (.refl s))
  case bvc => exact br (by decide) (fun f => !f.v)
  case cli => exact one (.cpu (u := s) _ rfl (.refl s))
  case rts => exact one ((pull16_acts s).setPc _)
  case adc => exact one (((operandRead_acts p s)).trans (addC_acts _ _))
  case ror => exact one (((((operandRead_acts p s)).trans (operandWrite_acts _ p _ _ _)).trans (setC_acts _ _)).trans (setZN_acts _ _))
  case pla => exact one (((pull_acts s)).trans (setA_acts _ _))
  case bvs => exact br (by decide) (fun f => f.v)
  case sei => exact one (.cpu (u := s) _ rfl (.refl s))
  case sta => exact one ((operandWrite_acts _ p _ _ s))
  case sty => exact one ((operandWrite_acts _ p _ _ s))
  case stx => exact one ((operandWrite_acts _ p _ _ s))
  case dey => exact one (setY_acts _ s)
  case txa => exact one (setA_acts _ s)
  case bcc => exact br (by decide) (fun f => !f.c)
  case tya => exact one (setA_acts _ s)
  case txs => exact one (.cpu (u := s) _ rfl (.refl s))
  case ldy => exact one (((operandRead_acts p s)).trans (setY_acts _ _))
  case lda => exact one (((operandRead_acts p s)).trans (setA_acts _ _))
  case ldx => exact one (((operandRead_acts p s)).trans (setX_acts _ _))
  case tay => exact one (setY_acts _ s)
  case tax => exact one (setX_acts _ s)
  case bcs => exact br (by decide) (fun f => f.c)
  case clv => exact one (.cpu (u := s) _ rfl (.refl s))
  case tsx => exact one (setX_acts _ s)
  case cpy => exact one (((operandRead_acts p s)).trans (compare_acts _ _ _))
  case cmp => exact one (((operandRead_acts p s)).trans (compare_acts _ _ _))
  case dec => exact one ((((operandRead_acts p s)).trans (operandWrite_acts _ p _ _ _)).trans (setZN_acts _ _))
  case iny => exact one (setY_acts _ s)
  case dex => exact one (setX_acts _ s)
  case bne => exact br (by decide) (fun f => !f.z)
  case cld => exact one (.cpu (u := s) _ rfl (.refl s))
  case cpx => exact one (((operandRead_acts p s)).trans (compare_acts _ _ _))
  case sbc => exact one (((operandRead_acts p s)).trans (subC_acts _ _))
  case inc => exact one ((((operandRead_acts p s)).trans (operandWrite_acts _ p _ _ _)).trans (setZN_acts _ _))
  case inx => exact one (setX_acts _ s)
  case nop => exact one (.refl s)
  case beq => exact br (by decide) (fun f => f.z)
  case sed => exact one (.cpu (u := s) _ rfl (.refl s))
  case slo => exact one (((((operandRead_acts p s)).trans (operandWrite_acts _ p _ _ _)).trans (setC_acts _ _)).trans (setA_acts _ _))
  case anc => exact one ((((operandRead_acts p s)).trans (setA_acts _ _)).trans (setC_acts _ _))
  case rla => exact one (((((operandRead_acts p s)).trans (operandWrite_acts _ p _ _ _)).trans (setC_acts _ _)).trans (setA_acts _ _))
  case sre => exact one (((((operandRead_acts p s)).trans (operandWrite_acts _ p _ _ _)).trans (setC_acts _ _)).trans (setA_acts _ _))
  case alr => exact one ((((operandRead_acts p s)).trans (setC_acts _ _)).trans (setA_acts _ _))
  case rra => exact one (((((operandRead_acts p s)).trans (operandWrite_acts _ p _ _ _)).trans (setC_acts _ _)).trans (addC_acts _ _))
  case arr => exact one (.cpu (u := setA (rotateRight ((operandRead p s).2.a &&& (operandRead p s).1) (operandRead p s).2.flags.c) (operandRead p s).2) _ rfl (((operandRead_acts p s)).trans (setA_acts _ _)))
  case sax => exact one ((operandWrite_acts _ p _ _ s))
  case lax => exact one ((((operandRead_acts p s)).trans (setA_acts _ _)).trans (setX_acts _ _))
  case dcp => exact one ((((operandRead_acts p s)).trans (operandWrite_acts _ p _ _ _)).trans (compare_acts _ _ _))
  case axs => exact one ((((operandRead_acts p s)).trans (setX_acts _ _)).trans (setC_acts _ _))
  case isc => exact one ((((operandRead_acts p s)).trans (operandWrite_acts _ p _ _ _)).trans (subC_acts _ _))
  case jam => exact one (.refl s)
  case xaa => exact one (.refl s)
  case sha => exact one (.refl s)
  case tas => exact one (.refl s)
  case shy => exact one (.refl s)
  case shx => exact one (.refl s)
  case lxa => exact one (.refl s)
  case las => exact one (.refl s)

theorem charge_moves (op : Byte) {s : State} {r : Resolved} (m : Moves s r.state) : Moves s (charge op r) :=
  .cpu _ rfl m

theorem exec_moves {i : Instr} {s t : State} (h : exec i s = .next t) : Moves s t := by
  by_cases hu : i.cls = .unsupported
  · rw [exec_unsupported i hu s] at h
    cases h
    exact .cpu (u := s) _ rfl (.refl s)
  · rw [exec_eq_runInstr i hu s] at h
    simp only [runInstr, Host.Outcome.next.injEq] at h
    subst h
    have m := charge_moves i.opcode (resolve_acts i.operand s).moves
    obtain ⟨u, n, h1, h2, -, -⟩ := opBody_acts i.operation (desc i.opcode) (resolve i.operand s).place
      (charge i.opcode (resolve i.operand s))
    rw [h2]
    exact (m.trans h1.moves).setOwed _

theorem afterFetch_moves (d : Desc) (s : State) : Moves s (afterFetch d s) := by
  have m1 := (nextByte_acts s).moves
  have m2 := m1.trans (nextByte_acts _).moves
  have m3 := m2.trans (nextByte_acts _).moves
  have mp := m1.setPc ((nextByte s).2.pc + 1)
  unfold afterFetch
  simp only
  cases d.cls
  case unsupported => exact m1
  all_goals
    cases d.mode
    case imp => exact m1
    case acc => exact m1
    case imm => exact mp
    case rel => exact mp
    case abs => exact m3
    case absx => exact m3
    case absy => exact m3
    case ind => exact m3
    all_goals exact m2

/-- A step is a chain of moves. -/
theorem step_moves {s t : State} (h : step s = .next t) : Moves s t := by
  unfold step at h
  split at h
  · cases h
  · split at h
    · cases h
    · split at h
      · cases h; exact interrupt_moves .nmi s
      · split at h
        · cases h; exact interrupt_moves .irq s
        · exact (afterFetch_moves _ s).trans (exec_moves h)

/-! ### What a step never touches -/

/-- A step leaves the cartridge, VRAM, CHR-RAM and the cancel flag alone (R124, R87, R495). -/
theorem Moves.frame {s t : State} (m : Moves s t) :
    t.cart = s.cart ∧ t.vram = s.vram ∧ t.chrRam = s.chrRam ∧ t.cancelled = s.cancelled := by
  refine m.keeps (P := fun t => t.cart = s.cart ∧ t.vram = s.vram ∧ t.chrRam = s.chrRam ∧ t.cancelled = s.cancelled)
    ?_ ?_ ?_ ?_ ⟨rfl, rfl, rfl, rfl⟩
  · intro u t e h; rw [e]; exact h
  · intro a v u h; exact h
  · intro a v u h; simpa using h
  · intro k u h; cases k <;> exact h

end Sys2Proof.Machine
end

