-- ==== Sys2Proof/Laws/Instr.lean ====
section
/-!
SUPPORT. What running one instruction amounts to, in the terms of the claims: `exec` of a row of a rule is its
operation's body on the resolved operand; `OperandRead` gives the operand byte and changes the bus record only; the
bit tests of the flag computations as comparisons of numbers.
-/
namespace Sys2Proof.Machine

/-! ### Bits as numbers -/

theorem Byte.bit7 (v : Byte) : v.getLsbD 7 = decide (128 ≤ v.toNat) := by
  revert v; decide

theorem Byte.bit6 (v : Byte) : v.getLsbD 6 = decide (64 ≤ v.toNat % 128) := by
  revert v; decide

theorem Byte.bit5 (v : Byte) : v.getLsbD 5 = decide (32 ≤ v.toNat % 64) := by
  revert v; decide

theorem Byte.bit0 (v : Byte) : v.getLsbD 0 = decide (v.toNat % 2 = 1) := by
  revert v; decide

theorem shiftLeft_eq (v : Byte) : shiftLeft v = BitVec.ofNat 8 (2 * v.toNat) := by
  revert v; decide

theorem shiftRight_eq (v : Byte) : shiftRight v = BitVec.ofNat 8 (v.toNat / 2) := by
  revert v; decide

theorem rotateLeft_eq (v : Byte) (c : Bool) : rotateLeft v c = BitVec.ofNat 8 (2 * v.toNat + if c then 1 else 0) := by
  cases c <;> revert v <;> decide

theorem rotateRight_eq (v : Byte) (c : Bool) :
    rotateRight v c = BitVec.ofNat 8 (v.toNat / 2 + 128 * if c then 1 else 0) := by
  cases c <;> revert v <;> decide

/-- `SetZN` in the terms of the claims. -/
theorem Flags.setZN_eq (f : Flags) (v : Byte) : f.setZN v = f.zn v := by
  simp only [Flags.setZN, Flags.zn, Byte.bit7]
  rfl

/-! ### The ALU primitives as numbers (R330 to R332) -/

/-- `AddC` in the terms of the claims. -/
theorem addC_eq (m : Byte) (s : State) :
    addC m s = { s with
        a := s.a + m + BitVec.ofNat 8 (bit s.flags.c)
        flags := { s.flags.zn (s.a + m + BitVec.ofNat 8 (bit s.flags.c)) with
          c := decide (255 < s.a.toNat + m.toNat + bit s.flags.c)
          v := decide (s.a.toInt + m.toInt + bit s.flags.c < -128 ∨ 127 < s.a.toInt + m.toInt + bit s.flags.c) } } := by
  have : BitVec.ofNat 8 (s.a.toNat + m.toNat + bit s.flags.c) = s.a + m + BitVec.ofNat 8 (bit s.flags.c) := by
    apply BitVec.eq_of_toNat_eq; simp
  simp only [addC, setA, Flags.setZN_eq, this]
  rfl

/-- `SubC` in the terms of the claims (the borrow form of R331). -/
theorem subC_eq (m : Byte) (s : State) :
    subC m s = { s with
        a := s.a - m - BitVec.ofNat 8 (1 - bit s.flags.c)
        flags := { s.flags.zn (s.a - m - BitVec.ofNat 8 (1 - bit s.flags.c)) with
          c := decide (m.toNat + (1 - bit s.flags.c) ≤ s.a.toNat)
          v := decide (s.a.toInt - m.toInt - (1 - bit s.flags.c : Nat) < -128 ∨
            127 < s.a.toInt - m.toInt - (1 - bit s.flags.c : Nat)) } } := by
  have hn : (~~~m).toNat = 255 - m.toNat := by simp [BitVec.toNat_not]
  have hi : (~~~m).toInt = -1 - m.toInt := by
    revert m; decide
  have hr : s.a + ~~~m + BitVec.ofNat 8 (bit s.flags.c) = s.a - m - BitVec.ofNat 8 (1 - bit s.flags.c) := by
    have : ~~~m = -m - 1#8 := BitVec.not_eq_neg_add m ▸ rfl
    cases s.flags.c <;> simp only [bit] <;> simp <;> bv_omega
  have hm := m.isLt
  have hb : bit s.flags.c ≤ 1 := by cases s.flags.c <;> simp [bit]
  have hc : decide (255 < s.a.toNat + (255 - m.toNat) + bit s.flags.c) =
      decide (m.toNat + (1 - bit s.flags.c) ≤ s.a.toNat) := by
    rw [decide_eq_decide]; omega
  have hv : decide (s.a.toInt + (-1 - m.toInt) + bit s.flags.c < -128 ∨
      127 < s.a.toInt + (-1 - m.toInt) + bit s.flags.c) =
      decide (s.a.toInt - m.toInt - (1 - bit s.flags.c : Nat) < -128 ∨
        127 < s.a.toInt - m.toInt - (1 - bit s.flags.c : Nat)) := by
    rw [decide_eq_decide]; omega
  rw [subC, addC_eq, hr, hn, hi, hc, hv]

/-- `Compare` in the terms of the claims. -/
theorem compare_eq (r m : Byte) (s : State) : compare r m s = { s with flags := { s.flags with
        c := decide (m.toNat ≤ r.toNat)
        z := decide (r = m)
        n := decide (128 ≤ (r - m).toNat) } } := by
  have h3 : (BitVec.ofInt 8 ((r.toNat : Int) - m.toNat)) = r - m := by
    apply BitVec.eq_of_toNat_eq
    simp [BitVec.toNat_sub]; omega
  simp only [compare, h3, Byte.bit7]
  congr 2
  · simp only [decide_eq_decide]; omega
  · simp only [decide_eq_decide]
    constructor
    · intro h; apply BitVec.eq_of_toNat_eq; omega
    · rintro rfl; omega
  · by_cases h : r = m
    · subst h; simp
    · have : ¬ ((r.toNat : Int) - m.toNat = 0) := fun e => h (BitVec.eq_of_toNat_eq (by omega))
      simp [this]

/-! ### `charge` -/

@[simp] theorem charge_a (op : Byte) (r : Resolved) : (charge op r).a = r.state.a := rfl
@[simp] theorem charge_x (op : Byte) (r : Resolved) : (charge op r).x = r.state.x := rfl
@[simp] theorem charge_y (op : Byte) (r : Resolved) : (charge op r).y = r.state.y := rfl
@[simp] theorem charge_sp (op : Byte) (r : Resolved) : (charge op r).sp = r.state.sp := rfl
@[simp] theorem charge_pc (op : Byte) (r : Resolved) : (charge op r).pc = r.state.pc := rfl
@[simp] theorem charge_flags (op : Byte) (r : Resolved) : (charge op r).flags = r.state.flags := rfl
@[simp] theorem charge_nmiPending (op : Byte) (r : Resolved) : (charge op r).nmiPending = r.state.nmiPending := rfl
@[simp] theorem charge_irqPending (op : Byte) (r : Resolved) : (charge op r).irqPending = r.state.irqPending := rfl
@[simp] theorem charge_status (op : Byte) (r : Resolved) : (charge op r).status = r.state.status := rfl
@[simp] theorem charge_cancelled (op : Byte) (r : Resolved) : (charge op r).cancelled = r.state.cancelled := rfl
@[simp] theorem charge_ram (op : Byte) (r : Resolved) : (charge op r).ram = r.state.ram := rfl
@[simp] theorem charge_vram (op : Byte) (r : Resolved) : (charge op r).vram = r.state.vram := rfl
@[simp] theorem charge_prgRam (op : Byte) (r : Resolved) : (charge op r).prgRam = r.state.prgRam := rfl
@[simp] theorem charge_chrRam (op : Byte) (r : Resolved) : (charge op r).chrRam = r.state.chrRam := rfl
@[simp] theorem charge_cart (op : Byte) (r : Resolved) : (charge op r).cart = r.state.cart := rfl
@[simp] theorem charge_mapper (op : Byte) (r : Resolved) : (charge op r).mapper = r.state.mapper := rfl
@[simp] theorem charge_prgWin (op : Byte) (r : Resolved) : (charge op r).prgWin = r.state.prgWin := rfl
@[simp] theorem charge_chrWin (op : Byte) (r : Resolved) : (charge op r).chrWin = r.state.chrWin := rfl
@[simp] theorem charge_mirroring (op : Byte) (r : Resolved) : (charge op r).mirroring = r.state.mirroring := rfl
@[simp] theorem charge_bus (op : Byte) (r : Resolved) : (charge op r).bus = r.state.bus := rfl
@[simp] theorem charge_draws (op : Byte) (r : Resolved) : (charge op r).draws = r.state.draws := rfl

/-! ### Running a row of a rule -/

/-- The operations of the unsupported rows. -/
def unsupportedOps : List Operation := [.jam, .xaa, .sha, .tas, .shy, .shx, .lxa, .las]

/-- `exec` of a row of a supported operation. -/
theorem exec_of_is {i : Instr} {op : Operation} (h : i.Is op) (hs : op ∉ unsupportedOps) (s : State) :
    exec i s = .next (opBody op (desc i.opcode) (i.place s) (charge i.opcode (resolve i.operand s))) := by
  have hc : i.cls ≠ .unsupported := fun e => hs (h.operation ▸ i.unsupported_operation e)
  rw [exec_eq_runInstr i hc s, h.operation]
  rfl

/-- The mode of a row of a rule is one the rule lists. -/
theorem mode_of_is {i : Instr} {op : Operation} (h : i.Is op) : i.operand.mode ∈ op.rows.map Prod.snd :=
  List.mem_map.mpr ⟨_, h, rfl⟩

/-- Where the operand of a memory mode is. -/
theorem place_mem {i : Instr} (s : State)
    (h : i.operand.mode ∈ [Mode.zp, .zpx, .zpy, .abs, .absx, .absy, .indx, .indy, .ind]) :
    ∃ a, i.place s = .mem a := by
  unfold Instr.place
  cases ho : i.operand
  all_goals first
    | exact ⟨_, rfl⟩
    | (rw [ho] at h; exact absurd h (by simp [Operand.mode]))

/-- An operand of mode `imp` is none. -/
theorem operand_imp {o : Operand} (h : o.mode = .imp) : o = .imp := by
  cases o <;> first | rfl | cases h

/-- The state in which a body runs: `s` with the cost, the scratch and the resolver's reads. -/
theorem charge_eq (i : Instr) (s : State) :
    charge i.opcode (resolve i.operand s) = { s with
      owed := s.owed + cost (desc i.opcode) (resolve i.operand s).crossed
      scratch := some ⟨i.opcode, desc i.opcode, (i.place s).ea, (resolve i.operand s).crossed⟩
      bus := (resolve i.operand s).state.bus
      draws := (resolve i.operand s).state.draws } := by
  have h := resolve_busOnly i.operand s
  unfold BusOnly at h
  unfold charge
  rw [h]
  rfl

/-- The bus accesses of `OperandRead`. -/
def Place.reads (p : Place) (v : Byte) : List BusAccess :=
  match p with
  | .none => []
  | .acc => []
  | .inline _ a => [.read a v]
  | .mem a => [.read a v]

/-- `OperandRead` of an instruction gives its operand byte; the state after it is `s` with the cost, the scratch
and the reads made. -/
theorem operandRead_charge (i : Instr) (s : State) :
    ∃ d, operandRead (i.place s) (charge i.opcode (resolve i.operand s)) = (i.operandByte s, { s with
      owed := s.owed + cost (desc i.opcode) (resolve i.operand s).crossed
      scratch := some ⟨i.opcode, desc i.opcode, (i.place s).ea, (resolve i.operand s).crossed⟩
      bus := (i.place s).reads (i.operandByte s) ++ (i.operand.pointerReads s ++ s.bus)
      draws := d }) := by
  have hb := resolve_bus i.operand s
  have h := resolve_busOnly i.operand s
  unfold BusOnly at h
  rw [charge_eq, Instr.operandByte]
  cases hp : i.place s with
  | none => exact ⟨_, by rw [hb]; rfl⟩
  | acc => exact ⟨_, by rw [hb]; simp only [operandRead]; rw [h]; rfl⟩
  | inline v a => exact ⟨_, by rw [hb]; rfl⟩
  | mem a =>
    refine ⟨(resolve i.operand s).state.draws + bit (oracleAddr a), ?_⟩
    rw [hb]
    simp only [operandRead, memRead]
    have hpk : ∀ (t : State), t.ram = s.ram → t.prgRam = s.prgRam → t.cart = s.cart → t.prgWin = s.prgWin →
        t.draws = (resolve i.operand s).state.draws → t.peek a = (resolve i.operand s).state.peek a := by
      intro t h1 h2 h3 h4 h5
      refine peek_congr ?_ ?_ ?_ ?_ h5 a
      all_goals rw [h]; assumption
    rw [hpk { s with
      owed := s.owed + cost (desc i.opcode) (resolve i.operand s).crossed
      scratch := some ⟨i.opcode, desc i.opcode, (Place.mem a).ea, (resolve i.operand s).crossed⟩
      bus := i.operand.pointerReads s ++ s.bus
      draws := (resolve i.operand s).state.draws } rfl rfl rfl rfl rfl]
    rfl

/-! ### Read-modify-write rows (R236, R266) -/

/-- The read-modify-write flag of a row of a rule: set for the operations that store a result, but for their
accumulator form. -/
theorem Operation.rows_rmw (op : Operation) :
    ∀ p ∈ op.rows, (desc p.1).rmw = decide
      (op ∈ [Operation.asl, .lsr, .rol, .ror, .inc, .dec, .dcp, .isc, .slo, .rla, .sre, .rra] ∧ p.2 ≠ .acc) := by
  cases op <;> decide

/-- `OperandRead` and `OperandWrite` of a read-modify-write row: one read of the operand byte, a write of it and a
write of the result, all at the resolved address; the other fields are those after the two writes. -/
theorem operandWrite_rmw {i : Instr} {s : State} {a : Word} (ha : i.place s = .mem a) (hr : (desc i.opcode).rmw = true) :
    let q := operandRead (i.place s) (charge i.opcode (resolve i.operand s))
    let m := i.operandByte s
    ∃ d, q.1 = m ∧ q.2.flags = s.flags ∧
      ∀ r, operandWrite (desc i.opcode).rmw (i.place s) m r q.2 = { memWrite a r (memWrite a m s) with
        owed := s.owed + cost (desc i.opcode) (resolve i.operand s).crossed
        scratch := some ⟨i.opcode, desc i.opcode, (i.place s).ea, (resolve i.operand s).crossed⟩
        bus := .write a r :: .write a m :: .read a m :: (i.operand.pointerReads s ++ s.bus)
        draws := d } := by
  obtain ⟨d, hd⟩ := operandRead_charge i s
  refine ⟨d, by rw [hd], by rw [hd], fun r => ?_⟩
  rw [hd]
  simp only
  rw [hr]
  conv_lhs => rw [ha]
  simp only [operandWrite, if_true]
  rw [memWrite_counters a (i.operandByte s) s, memWrite_counters a r (memWrite a (i.operandByte s) s), ha]
  rfl

end Sys2Proof.Machine
end

