-- ==== Sys2Proof/Laws/Stack.lean ====
section
/-!
SUPPORT. The stack operations, interrupt entry and the return from it, written out field by field (R16, R35, R392,
R393, R476): the stack lies in RAM, so a push is a change of RAM, SP and the bus record and of nothing else.
-/
namespace Sys2Proof.Machine

/-- `Push(v)`. -/
theorem push_eq (v : Byte) (s : State) : push v s = { s with
    sp := s.sp - 1
    ram := s.ram.set (0x100 + s.sp.toNat) v
    bus := .write (stackAddr s.sp) v :: s.bus } := by
  have h := stackAddr_toNat s.sp
  have := s.sp.isLt
  unfold push
  rw [memWrite_ram v s (by omega), h, Nat.mod_eq_of_lt (by omega)]

/-- What a read of the stack finds. -/
theorem peek_stack (s : State) (sp : Byte) : s.peek (stackAddr sp) = s.ram.get (0x100 + sp.toNat) := by
  have h := stackAddr_toNat sp
  have := sp.isLt
  rw [peek_ram (by omega), h, Nat.mod_eq_of_lt (by omega)]

/-- `Pull()`. -/
theorem pull_eq (s : State) : pull s = (s.peek (stackAddr (s.sp + 1)), { s with
    sp := s.sp + 1
    bus := .read (stackAddr (s.sp + 1)) (s.peek (stackAddr (s.sp + 1))) :: s.bus }) := by
  unfold pull memRead
  simp only
  rw [peek_stack, peek_stack]
  simp [recordRead, bit]

/-- `Push16(w)`: the high byte at the higher address. -/
theorem push16_eq (w : Word) (s : State) : push16 w s = { s with
    sp := s.sp - 2
    ram := (s.ram.set (0x100 + s.sp.toNat) w.hi).set (0x100 + (s.sp - 1).toNat) w.lo
    bus := .write (stackAddr (s.sp - 1)) w.lo :: .write (stackAddr s.sp) w.hi :: s.bus } := by
  have e : s.sp - 1 - 1 = s.sp - 2 := by bv_omega
  unfold push16
  rw [push_eq, push_eq]
  simp only [e]

/-- `Pull16()`. -/
theorem pull16_eq (s : State) : pull16 s =
    ((s.peek (stackAddr (s.sp + 2))).pair (s.peek (stackAddr (s.sp + 1))), { s with
      sp := s.sp + 2
      bus := .read (stackAddr (s.sp + 2)) (s.peek (stackAddr (s.sp + 2))) ::
        .read (stackAddr (s.sp + 1)) (s.peek (stackAddr (s.sp + 1))) :: s.bus }) := by
  have e : s.sp + 1 + 1 = s.sp + 2 := by bv_omega
  unfold pull16
  rw [pull_eq]
  simp only
  rw [pull_eq]
  simp only [e, peek_stack]

/-- The bytes an entry pushes, in RAM (R476, R393). -/
def entryRam (sp : Byte) (pc : Word) (p : Byte) (ram : Memory) : Memory :=
  ((ram.set (0x100 + sp.toNat) pc.hi).set (0x100 + (sp - 1).toNat) pc.lo).set (0x100 + (sp - 2).toNat) p

/-- The entry through a vector in 0x8000-0xFFFF. -/
theorem takeException_eq {v : Word} (hv : 0x8000 ≤ v.toNat) (hv' : v.toNat < 0xFFFF) (b4 : Bool) (s : State) :
    takeException v b4 s = { s with
      pc := (s.peek (v + 1)).pair (s.peek v)
      sp := s.sp - 3
      ram := entryRam s.sp s.pc (s.flags.pack b4) s.ram
      bus := .read (v + 1) (s.peek (v + 1)) :: .read v (s.peek v) ::
        .write (stackAddr (s.sp - 2)) (s.flags.pack b4) :: .write (stackAddr (s.sp - 1)) s.pc.lo ::
        .write (stackAddr s.sp) s.pc.hi :: s.bus } := by
  have e : s.sp - 2 - 1 = s.sp - 3 := by bv_omega
  have h1 : (v + 1).toNat = v.toNat + 1 := by
    have : (1 : Word).toNat = 1 := rfl
    rw [BitVec.toNat_add]; omega
  have o0 : oracleAddr v = false := oracleAddr_of_high hv
  have o1 : oracleAddr (v + 1) = false := oracleAddr_of_high (by omega)
  unfold takeException readWord
  rw [push16_eq, push_eq]
  simp only [memRead, peek_prg hv, peek_prg (show 0x8000 ≤ (v + 1).toNat by omega), State.prgIndex, e, recordRead, o0,
    o1, bit, entryRam]
  rfl

/-- Entry through any vector leaves the flags alone (R53). -/
theorem takeException_flags (v : Word) (b4 : Bool) (s : State) : (takeException v b4 s).flags = s.flags := by
  unfold takeException readWord
  rw [push16_eq, push_eq]
  rfl

/-- RTI (R392). -/
theorem returnFromInterrupt_eq (s : State) : returnFromInterrupt s = { s with
    sp := s.sp + 3
    pc := (s.peek (stackAddr (s.sp + 3))).pair (s.peek (stackAddr (s.sp + 2)))
    flags := Flags.unpack (s.peek (stackAddr (s.sp + 1)))
    bus := .read (stackAddr (s.sp + 3)) (s.peek (stackAddr (s.sp + 3))) ::
      .read (stackAddr (s.sp + 2)) (s.peek (stackAddr (s.sp + 2))) ::
      .read (stackAddr (s.sp + 1)) (s.peek (stackAddr (s.sp + 1))) :: s.bus } := by
  have e2 : s.sp + 1 + 1 = s.sp + 2 := by bv_omega
  have e3 : s.sp + 1 + 2 = s.sp + 3 := by bv_omega
  unfold returnFromInterrupt
  rw [pull_eq]
  simp only
  rw [pull16_eq]
  simp only [e2, e3, peek_stack]

/-! ### What the stack holds after an entry -/

theorem entryRam_wf {sp : Byte} {pc : Word} {p : Byte} {ram : Memory} (h : ram.wf = true) :
    (entryRam sp pc p ram).wf = true :=
  Memory.wf_set (Memory.wf_set (Memory.wf_set h _ _) _ _) _ _

/-- An entry stores its three bytes, and nothing else (the three slots are distinct for every SP). -/
theorem entryRam_get {sp : Byte} {pc : Word} {p : Byte} {ram : Memory} (h : ram.wf = true) (k : Nat) :
    (entryRam sp pc p ram).get k =
      if k = 0x100 + (sp - 2).toNat then p
      else if k = 0x100 + (sp - 1).toNat then pc.lo
      else if k = 0x100 + sp.toNat then pc.hi
      else ram.get k := by
  unfold entryRam
  have h1 := Memory.wf_set h (0x100 + sp.toNat) pc.hi
  have h2 := Memory.wf_set h1 (0x100 + (sp - 1).toNat) pc.lo
  split
  · rename_i e; rw [e]; exact Memory.get_set_self h2 _ _
  · rename_i e
    rw [Memory.get_set_of_ne h2 _ (e)]
    split
    · rename_i e; rw [e]; exact Memory.get_set_self h1 _ _
    · rename_i e
      rw [Memory.get_set_of_ne h1 _ (e)]
      split
      · rename_i e; rw [e]; exact Memory.get_set_self h _ _
      · rename_i e
        exact Memory.get_set_of_ne h _ (e)

/-- `Pack` gives the status byte of the claims (R44). -/
theorem Flags.pack_eq (f : Flags) (b : Bool) : f.pack b = f.statusByte b := by
  rcases f with ⟨c, z, i, d, b', v, n⟩
  revert c z i d b' v n b
  decide

/-- A RAM address that is not a mirror of a stack slot has another index. -/
theorem ramIndex_ne_stack {sp : Byte} {b : Word} (h : ¬ sameByte (stackAddr sp) b) (hb : b.toNat < 0x2000) :
    b.toNat % 0x800 ≠ 0x100 + sp.toNat := by
  intro e
  apply h
  have := stackAddr_toNat sp
  have := sp.isLt
  exact .inr ⟨by omega, hb, by omega⟩

/-- Three slots one below another are distinct, for every SP (R35). -/
theorem stack_slots_ne (sp : Byte) :
    (sp - 1).toNat ≠ sp.toNat ∧ (sp - 2).toNat ≠ sp.toNat ∧ (sp - 2).toNat ≠ (sp - 1).toNat := by
  revert sp; decide

/-- What reads find after an entry. -/
theorem entryRam_reads {s t : State} (hw : s.ram.wf = true) {pc : Word} {p : Byte} (hr : t.ram = entryRam s.sp pc p s.ram)
    (h1 : t.prgRam = s.prgRam) (h2 : t.cart = s.cart) (h3 : t.prgWin = s.prgWin) :
    t.peek (stackAddr s.sp) = pc.hi ∧ t.peek (stackAddr (s.sp - 1)) = pc.lo ∧ t.peek (stackAddr (s.sp - 2)) = p ∧
      ∀ b : Word, oracleAddr b = false → ¬ sameByte (stackAddr s.sp) b → ¬ sameByte (stackAddr (s.sp - 1)) b →
        ¬ sameByte (stackAddr (s.sp - 2)) b → t.peek b = s.peek b := by
  obtain ⟨n1, n2, n3⟩ := stack_slots_ne s.sp
  refine ⟨?_, ?_, ?_, ?_⟩
  · rw [peek_stack, hr, entryRam_get hw, if_neg (by omega), if_neg (by omega), if_pos rfl]
  · rw [peek_stack, hr, entryRam_get hw, if_neg (by omega), if_pos rfl]
  · rw [peek_stack, hr, entryRam_get hw, if_pos rfl]
  · intro b hb g1 g2 g3
    rcases Nat.lt_or_ge b.toNat 0x2000 with h | h
    · rw [peek_ram h, peek_ram h, hr, entryRam_get hw]
      rw [if_neg (ramIndex_ne_stack g3 h), if_neg (ramIndex_ne_stack g2 h), if_neg (ramIndex_ne_stack g1 h)]
    · have e : ({ t with ram := s.ram } : State).peek b = s.peek b := by
        refine peek_congr_memory ?_ ?_ ?_ ?_ hb <;> first | rfl | assumption
      rw [← e]
      unfold State.peek
      simp only [if_neg (show ¬ b.toNat < 0x2000 by omega)]
      rfl

end Sys2Proof.Machine
end

