-- ==== Sys2Proof/Laws/Word.lean ====
section
/-!
SUPPORT. Bytes and words as numbers: the two halves of a word, a word of two bytes, extensions.
-/
namespace Sys2Proof

theorem Word.hi_toNat (w : Word) : w.hi.toNat = w.toNat / 256 := by
  have := w.isLt
  simp only [Word.hi, BitVec.extractLsb'_toNat, Nat.shiftRight_eq_div_pow]
  omega

theorem Word.lo_toNat (w : Word) : w.lo.toNat = w.toNat % 256 := by
  simp only [Word.lo, BitVec.extractLsb'_toNat, Nat.shiftRight_eq_div_pow]
  omega

theorem Byte.pair_toNat (h l : Byte) : (h.pair l).toNat = 256 * h.toNat + l.toNat := by
  have := l.isLt
  simp only [Byte.pair, BitVec.toNat_append, Nat.shiftLeft_eq]
  rw [Nat.mul_comm]
  rw [← Nat.two_pow_add_eq_or_of_lt this]

/-- A word of two bytes as a number (R12). -/
theorem Byte.pair_eq (h l : Byte) : h.pair l = BitVec.ofNat 16 (256 * h.toNat + l.toNat) := by
  rw [← Byte.pair_toNat, BitVec.ofNat_toNat, BitVec.setWidth_eq]

theorem Byte.zext_toNat (v : Byte) : v.zext.toNat = v.toNat := by
  have := v.isLt
  simp only [Byte.zext, BitVec.toNat_setWidth]
  omega

/-- Zero extension as a number (R13). -/
theorem Byte.zext_eq (v : Byte) : v.zext = BitVec.ofNat 16 v.toNat := by
  rw [← Byte.zext_toNat, BitVec.ofNat_toNat, BitVec.setWidth_eq]

/-- Two words have the same high byte. -/
theorem Word.hi_eq_iff (a b : Word) : a.hi = b.hi ↔ a.toNat / 256 = b.toNat / 256 := by
  rw [← Word.hi_toNat, ← Word.hi_toNat, BitVec.toNat_inj]

/-- The next address within a page (R281): the low byte plus 1 modulo 256 under the same high byte. -/
theorem Word.pageNext_eq (w : Word) : w.hi.pair (w.lo + 1) = (w &&& 0xFF00) ||| ((w + 1) &&& 0x00FF) := by
  apply BitVec.eq_of_getLsbD_eq
  intro k hk
  have hlo : w.lo + 1 = (w + 1).lo := by
    apply BitVec.eq_of_toNat_eq
    rw [Word.lo_toNat, BitVec.toNat_add, BitVec.toNat_add, Word.lo_toNat]
    have : (1 : Byte).toNat = 1 := rfl
    have : (1 : Word).toNat = 1 := rfl
    omega
  rw [hlo]
  have h1 : ∀ k < 16, (0xFF00 : Word).getLsbD k = decide (8 ≤ k) := by decide
  have h2 : ∀ k < 16, (0x00FF : Word).getLsbD k = decide (k < 8) := by decide
  simp only [Byte.pair, Word.hi, Word.lo, BitVec.getLsbD_append, BitVec.getLsbD_extractLsb', BitVec.getLsbD_or,
    BitVec.getLsbD_and, h1 k hk, h2 k hk]
  by_cases h : k < 8
  · simp [h, show ¬ 8 ≤ k by omega]
  · simp [h, show 8 ≤ k by omega, show k - 8 < 8 by omega, show 8 + (k - 8) = k by omega]

/-- A sum with a sign-extended byte, as integers modulo 65536 (R13). -/
theorem Word.add_sext_eq (a : Word) (o : Byte) (k : Nat) :
    a + o.sext + BitVec.ofNat 16 k = BitVec.ofInt 16 (a.toNat + o.toInt + k) := by
  have ho : BitVec.ofInt 16 o.toInt = o.sext := by
    apply BitVec.eq_of_toInt_eq
    simp only [Byte.sext]
    rw [BitVec.toInt_signExtend_of_le (by decide), BitVec.toInt_ofInt]
    revert o; decide
  rw [BitVec.ofInt_add, BitVec.ofInt_add, ho]
  simp

end Sys2Proof
end

