-- ==== Sys2Proof/Tests/Slice0.lean ====
section
/-!
SUPPORT. Tests. The expected results are the spec's own: the vectors V, I, B, L and M of spec/95_test_vectors.md (a name
`test_V<n>_<constructor>` is vector V<n>), the encodings of spec/30_encoding.md, and hand calculation from a named rule
where no vector fits the real bus. `witness_<Name>` shows that the hypotheses of Obligations.<Name> can be met.
-/
namespace Sys2Proof.Tests
-- The tests are checked one after another, so that they do not each take a thread.
set_option Elab.async false
open Sys2Proof.Machine

/-! ### Helpers -/

/-- The reset state with bytes at `pc`, and with other bytes of RAM, all in internal RAM. -/
def program (pc : Word) (bytes : List Byte) (cells : List (Nat × Byte)) : State :=
  { State.reset with
    pc := pc
    ram := (State.reset.ram.setBytes pc.toNat bytes) |> cells.foldl (fun m c => m.set c.1 c.2) }

/-- The reset state with bytes in PRG-ROM at 0x8000, and with other bytes of PRG-ROM, by CPU address. -/
def rom (bytes : List Byte) (cells : List (Nat × Byte)) : State :=
  { State.reset with
    pc := 0x8000
    cart := { blankCartridge with
      prg := (Memory.ofBytes bytes) |> cells.foldl (fun m c => m.set (c.1 - 0x8000) c.2) } }

/-- The bus writes of `t` since `s`, oldest first. -/
def writes (s t : State) : List (Word × Byte) :=
  ((t.bus.take (t.bus.length - s.bus.length)).filterMap fun
    | .write a v => some (a, v)
    | _ => none).reverse

/-- Whether one step from `s` leaves the registers, flags, latches, cost and status of `e`, after these writes. -/
def ends (s e : State) (ws : List (Word × Byte)) : Bool :=
  match step s with
  | .next t =>
    t.pc == e.pc && t.a == e.a && t.x == e.x && t.y == e.y && t.sp == e.sp && t.flags == e.flags && t.owed == e.owed &&
      t.nmiPending == e.nmiPending && t.irqPending == e.irqPending && t.status == e.status && writes s t == ws
  | _ => false

/-- A state after the power-on of a variant with its cartridge's sizes. -/
def cartridge (m : Mapper) (prgUnits chrUnits : Nat) : State :=
  mapperPowerOn m { State.reset with
    cart := { blankCartridge with prgUnits := prgUnits, chrUnits := chrUnits, mapperNumber := m.number } }

/-- CPU writes one after another, each at a new `PC`. -/
def pokes (s : State) (ws : List (Word × Byte)) : State :=
  ws.foldl (fun s w => memWrite w.1 w.2 { s with pc := s.pc + 1 }) s

/-! ### Words written out from the spec's encodings (R230 to R232, R237, R238) -/

theorem test_decode_load : decode [0b10101101, 0b00110100, 0b00010010] = .ok (.ldaAbs 0x1234, []) := rfl
theorem test_decode_store : decode [0b10010110, 0b00010000] = .ok (.stxZpy 0x10, []) := rfl
theorem test_decode_transfer : decode [0b10111010] = .ok (.tsx, []) := rfl
theorem test_decode_arithmetic : decode [0b01110001, 0b11111111] = .ok (.adcIndy 0xFF, []) := rfl
theorem test_decode_logic : decode [0b01001001, 0b00001111] = .ok (.eorImm 0x0F, []) := rfl
theorem test_decode_compare : decode [0b11000100, 0b00000001] = .ok (.cpyZp 0x01, []) := rfl
theorem test_decode_shift : decode [0b01111110, 0b11111111, 0b00000000] = .ok (.rorAbsx 0x00FF, []) := rfl
theorem test_decode_increment : decode [0b11010110, 0b10000000] = .ok (.decZpx 0x80, []) := rfl
theorem test_decode_branch : decode [0b01010000, 0b11111110] = .ok (.bvc 0xFE, []) := rfl
theorem test_decode_jump : decode [0b01101100, 0b11111111, 0b00110000] = .ok (.jmpInd 0x30FF, []) := rfl
theorem test_decode_system : decode [0b01000000, 0b11111111] = .ok (.rti, [0xFF]) := rfl
theorem test_decode_flag : decode [0b11111000] = .ok (.sed, []) := rfl
theorem test_decode_unofficial_read : decode [0b10110011, 0b00000111] = .ok (.laxIndy 0x07, []) := rfl
theorem test_decode_unofficial_rmw : decode [0b11111011, 0b00000000, 0b00000010] = .ok (.iscAbsy 0x0200, []) := rfl
theorem test_decode_unofficial_duplicate : decode [0b00101011, 0b01111111] = .ok (.ancImm2B 0x7F, []) := rfl
theorem test_decode_unsupported : decode [0b10011100, 0b00000000, 0b01110000] = .ok (.shy 0x7000, []) := rfl
theorem test_decode_truncated : decode [0b10101101, 0b00110100] = .error (.truncated 3) := rfl
/-- The word layout of the opcode table: bit 0 is the lowest bit of the first byte. -/
theorem test_decodeTableWord : decodeTableWord 24 0x1234AD = some (.ldaAbs 0x1234) := by
  decide +kernel
theorem test_decodeTableWord_short : decodeTableWord 8 0xAD = some (.ldaAbs 0) := by decide +kernel
theorem test_withFetchWord : ends (State.reset.withFetchWord 16 0x80A9)
    { State.reset with pc := 0x0002, a := 0x80, flags.n := true, owed := 2 } [] = true := by decide +kernel

/-! ### Ill-formed source lines (R240, R241) -/

theorem test_asm_wf : (Asm.line .ldx (.zpy 0x10)).wf = true ∧ (Asm.branch .beq 0x0200 0x0281).wf = true := by decide +kernel
/-- "there is no `LDX zp,X`" (R301). -/
theorem test_asm_refuses_ldx_zpx : (Asm.line .ldx (.zpx 0x10)).wf = false := by decide +kernel
/-- STA has no immediate form (R303). -/
theorem test_asm_refuses_sta_imm : (Asm.line .sta (.imm 0x10)).wf = false := by decide +kernel
/-- A branch is written with its target, not with an offset byte. -/
theorem test_asm_refuses_rel_line : (Asm.line .beq (.rel 0x10)).wf = false := by decide +kernel
/-- An operation that is no branch has no target. -/
theorem test_asm_refuses_branch_of_lda : (Asm.branch .lda 0x0200 0x0202).wf = false := by decide +kernel
/-- Offset 128 is out of reach, 127 and -128 are not (R240). -/
theorem test_asm_refuses_far_branch : (Asm.branch .beq 0x0200 0x0282).wf = false ∧
    (Asm.branch .beq 0x0200 0x0181).wf = false ∧ (Asm.branch .beq 0x0200 0x0182).wf = true := by decide +kernel
/-- Both ends of the address space are in reach of each other (log entry 18, the model's choice). -/
theorem test_asm_branch_wraps : branchOffset 0xFFF0 0x0010 = some 0x1E ∧ branchOffset 0x0000 0xFFFE = some 0xFC := by
  decide +kernel
/-- The rows taken for lines that several rows share (log entry 17, the model's choice). -/
theorem test_asm_shared_rows : opcodeFor .nop .imp = some 0xEA ∧ opcodeFor .sbc .imm = some 0xE9 ∧
    opcodeFor .nop .imm = some 0x80 ∧ opcodeFor .anc .imm = some 0x0B := by decide +kernel

/-! ### Single-step vectors (spec/95_test_vectors.md section 2) -/

theorem test_V1_ldaZpx :
    let s : State := { program 0x0200 [0xB5, 0xFF] [(0x0000, 0x42)] with x := 0x01 }
    ends s { s with pc := 0x0202, a := 0x42, owed := 4 } [] = true := by decide +kernel

theorem test_V2_ldxZpy :
    let s : State := { program 0x0200 [0xB6, 0xFF] [(0x0001, 0x99)] with y := 0x02 }
    ends s { s with pc := 0x0202, x := 0x99, flags.n := true, owed := 4 } [] = true := by decide +kernel

theorem test_V5_ldaAbsx :
    let s : State := { program 0x0200 [0xBD, 0xFF, 0xFF] [(0x0001, 0x03)] with x := 0x02 }
    ends s { s with pc := 0x0203, a := 0x03, owed := 5 } [] = true := by decide +kernel

theorem test_V6_ldaAbsy :
    let s : State := { program 0x0200 [0xB9, 0xFF, 0x04] [(0x0500, 0x04)] with y := 0x01 }
    ends s { s with pc := 0x0203, a := 0x04, owed := 5 } [] = true := by decide +kernel

theorem test_V7_staAbsy :
    let s : State := { program 0x0200 [0x99, 0xF0, 0x03] [] with a := 0x55, y := 0x20 }
    ends s { s with pc := 0x0203, owed := 5 } [(0x0410, 0x55)] = true := by decide +kernel

theorem test_V8_ldaIndx :
    let s : State := { program 0x0200 [0xA1, 0xFE] [(0x0000, 0x04), (0x00FF, 0x00), (0x0100, 0x05), (0x0400, 0x77)] with x := 0x01 }
    ends s { s with pc := 0x0202, a := 0x77, owed := 6 } [] = true := by decide +kernel

theorem test_V9_ldaIndy :
    let s : State := { program 0x0200 [0xB1, 0x10] [(0x0010, 0xF0), (0x0011, 0x03), (0x0410, 0x88)] with y := 0x20 }
    ends s { s with pc := 0x0202, a := 0x88, flags.n := true, owed := 6 } [] = true := by decide +kernel

theorem test_V11_ldaIndy :
    let s : State := { program 0x0200 [0xB1, 0xFF] [(0x0000, 0x03), (0x00FF, 0x00), (0x0100, 0x09), (0x0305, 0x11)] with y := 0x05 }
    ends s { s with pc := 0x0202, a := 0x11, owed := 5 } [] = true := by decide +kernel

theorem test_V14_nopAbsx1C :
    let s : State := { program 0x0200 [0x1C, 0xF0, 0x03] [] with x := 0x20 }
    ends s { s with pc := 0x0203, owed := 5 } [] = true := by decide +kernel

theorem test_V15_stxZpy :
    let s : State := { program 0x0200 [0x96, 0xF0] [] with x := 0x77, y := 0x20 }
    ends s { s with pc := 0x0202, owed := 4 } [(0x0010, 0x77)] = true := by decide +kernel

theorem test_V16_ldaImm :
    let s : State := { program 0x0200 [0xA9, 0x00] [] with a := 0x12 }
    ends s { s with pc := 0x0202, a := 0x00, flags.z := true, owed := 2 } [] = true := by decide +kernel

theorem test_V18_ldxImm :
    let s : State := program 0x0200 [0xA2, 0xFF] []
    ends s { s with pc := 0x0202, x := 0xFF, flags.n := true, owed := 2 } [] = true := by decide +kernel

theorem test_V19_ldyImm :
    let s : State := program 0x0200 [0xA0, 0x7F] []
    ends s { s with pc := 0x0202, y := 0x7F, owed := 2 } [] = true := by decide +kernel

theorem test_V20_staAbs :
    let s : State := { program 0x0200 [0x8D, 0x00, 0x06] [] with a := 0x42 }
    ends s { s with pc := 0x0203, owed := 4 } [(0x0600, 0x42)] = true := by decide +kernel

theorem test_V21_stxZp :
    let s : State := { program 0x0200 [0x86, 0xFF] [] with x := 0x10 }
    ends s { s with pc := 0x0202, owed := 3 } [(0x00FF, 0x10)] = true := by decide +kernel

theorem test_V22_styZpx :
    let s : State := { program 0x0200 [0x94, 0xF0] [] with y := 0x05, x := 0x20 }
    ends s { s with pc := 0x0202, owed := 4 } [(0x0010, 0x05)] = true := by decide +kernel

theorem test_V23_tax :
    let s : State := { program 0x0200 [0xAA] [] with a := 0x00 }
    ends s { s with pc := 0x0201, flags.z := true, owed := 2 } [] = true := by decide +kernel

theorem test_V24_tay :
    let s : State := { program 0x0200 [0xA8] [] with a := 0x9C }
    ends s { s with pc := 0x0201, y := 0x9C, flags.n := true, owed := 2 } [] = true := by decide +kernel

theorem test_V25_txa :
    let s : State := { program 0x0200 [0x8A] [] with x := 0x01 }
    ends s { s with pc := 0x0201, a := 0x01, owed := 2 } [] = true := by decide +kernel

theorem test_V26_tya :
    let s : State := { program 0x0200 [0x98] [] with y := 0x80 }
    ends s { s with pc := 0x0201, a := 0x80, flags.n := true, owed := 2 } [] = true := by decide +kernel

theorem test_V27_tsx :
    let s : State := program 0x0200 [0xBA] []
    ends s { s with pc := 0x0201, x := 0xFD, flags.n := true, owed := 2 } [] = true := by decide +kernel

theorem test_V28_txs :
    let s : State := { program 0x0200 [0x9A] [] with x := 0x00 }
    ends s { s with pc := 0x0201, sp := 0x00, owed := 2 } [] = true := by decide +kernel

theorem test_V29_adcImm :
    let s : State := { program 0x0200 [0x69, 0x01] [] with a := 0x7F, flags.c := false }
    ends s { s with pc := 0x0202, a := 0x80, flags.v := true, flags.n := true, owed := 2 } [] = true := by decide +kernel

theorem test_V31_adcImm :
    let s : State := { program 0x0200 [0x69, 0x80] [] with a := 0x80, flags.c := false }
    ends s { s with pc := 0x0202, a := 0x00, flags.c := true, flags.z := true, flags.v := true, owed := 2 } [] = true := by decide +kernel

theorem test_V38_sbcImm :
    let s : State := { program 0x0200 [0xE9, 0x01] [] with a := 0x00, flags.c := true }
    ends s { s with pc := 0x0202, a := 0xFF, flags.c := false, flags.n := true, owed := 2 } [] = true := by decide +kernel

theorem test_V42_sbcImm :
    let s : State := { program 0x0200 [0xE9, 0xB0] [] with a := 0x50, flags.c := true }
    ends s { s with pc := 0x0202, a := 0xA0, flags.c := false, flags.v := true, flags.n := true, owed := 2 } [] = true := by decide +kernel

theorem test_V45_sbcImmEB :
    let s : State := { program 0x0200 [0xEB, 0xF0] [] with a := 0x50, flags.c := true }
    ends s { s with pc := 0x0202, a := 0x60, flags.c := false, owed := 2 } [] = true := by decide +kernel

theorem test_V46_cmpImm :
    let s : State := { program 0x0200 [0xC9, 0x00] [] with a := 0x80 }
    ends s { s with pc := 0x0202, flags.c := true, flags.n := true, owed := 2 } [] = true := by decide +kernel

theorem test_V48_cmpImm :
    let s : State := { program 0x0200 [0xC9, 0x01] [] with a := 0x00 }
    ends s { s with pc := 0x0202, flags.n := true, owed := 2 } [] = true := by decide +kernel

theorem test_V52_cpxImm :
    let s : State := { program 0x0200 [0xE0, 0x06] [] with x := 0x05 }
    ends s { s with pc := 0x0202, flags.n := true, owed := 2 } [] = true := by decide +kernel

theorem test_V53_cpyImm :
    let s : State := { program 0x0200 [0xC0, 0x10] [] with y := 0x10 }
    ends s { s with pc := 0x0202, flags.c := true, flags.z := true, owed := 2 } [] = true := by decide +kernel

theorem test_V54_andImm :
    let s : State := { program 0x0200 [0x29, 0x3C] [] with a := 0xF0 }
    ends s { s with pc := 0x0202, a := 0x30, owed := 2 } [] = true := by decide +kernel

theorem test_V56_oraImm :
    let s : State := { program 0x0200 [0x09, 0x80] [] with a := 0x01 }
    ends s { s with pc := 0x0202, a := 0x81, flags.n := true, owed := 2 } [] = true := by decide +kernel

theorem test_V57_eorImm :
    let s : State := { program 0x0200 [0x49, 0xFF] [] with a := 0xFF }
    ends s { s with pc := 0x0202, a := 0x00, flags.z := true, owed := 2 } [] = true := by decide +kernel

theorem test_V58_bitZp :
    let s : State := { program 0x0200 [0x24, 0x10] [(0x0010, 0xC0)] with a := 0x00 }
    ends s { s with pc := 0x0202, flags.z := true, flags.v := true, flags.n := true, owed := 3 } [] = true := by decide +kernel

theorem test_V59_bitAbs :
    let s : State := { program 0x0200 [0x2C, 0x00, 0x06] [(0x0600, 0x01)] with a := 0x01 }
    ends s { s with pc := 0x0203, owed := 4 } [] = true := by decide +kernel

theorem test_V60_incZp :
    let s : State := program 0x0200 [0xE6, 0x10] [(0x0010, 0x7F)]
    ends s { s with pc := 0x0202, flags.n := true, owed := 5 } [(0x0010, 0x7F), (0x0010, 0x80)] = true := by decide +kernel

theorem test_V62_decZp :
    let s : State := program 0x0200 [0xC6, 0x10] [(0x0010, 0x00)]
    ends s { s with pc := 0x0202, flags.n := true, owed := 5 } [(0x0010, 0x00), (0x0010, 0xFF)] = true := by decide +kernel

theorem test_V63_incAbsx :
    let s : State := { program 0x0200 [0xFE, 0xFF, 0x05] [(0x0600, 0x41)] with x := 0x01 }
    ends s { s with pc := 0x0203, owed := 7 } [(0x0600, 0x41), (0x0600, 0x42)] = true := by decide +kernel

theorem test_V64_inx :
    let s : State := { program 0x0200 [0xE8] [] with x := 0xFF }
    ends s { s with pc := 0x0201, x := 0x00, flags.z := true, owed := 2 } [] = true := by decide +kernel

theorem test_V65_iny :
    let s : State := { program 0x0200 [0xC8] [] with y := 0x7F }
    ends s { s with pc := 0x0201, y := 0x80, flags.n := true, owed := 2 } [] = true := by decide +kernel

theorem test_V66_dex :
    let s : State := { program 0x0200 [0xCA] [] with x := 0x00 }
    ends s { s with pc := 0x0201, x := 0xFF, flags.n := true, owed := 2 } [] = true := by decide +kernel

theorem test_V67_dey :
    let s : State := { program 0x0200 [0x88] [] with y := 0x01 }
    ends s { s with pc := 0x0201, y := 0x00, flags.z := true, owed := 2 } [] = true := by decide +kernel

theorem test_V68_aslAcc :
    let s : State := { program 0x0200 [0x0A] [] with a := 0x81 }
    ends s { s with pc := 0x0201, a := 0x02, flags.c := true, owed := 2 } [] = true := by decide +kernel

theorem test_V69_aslZp :
    let s : State := program 0x0200 [0x06, 0x10] [(0x0010, 0x80)]
    ends s { s with pc := 0x0202, flags.c := true, flags.z := true, owed := 5 } [(0x0010, 0x80), (0x0010, 0x00)] = true := by decide +kernel

theorem test_V70_lsrAcc :
    let s : State := { program 0x0200 [0x4A] [] with a := 0x01 }
    ends s { s with pc := 0x0201, a := 0x00, flags.c := true, flags.z := true, owed := 2 } [] = true := by decide +kernel

theorem test_V71_lsrZp :
    let s : State := program 0x0200 [0x46, 0x10] [(0x0010, 0x02)]
    ends s { s with pc := 0x0202, owed := 5 } [(0x0010, 0x02), (0x0010, 0x01)] = true := by decide +kernel

theorem test_V72_rolAcc :
    let s : State := { program 0x0200 [0x2A] [] with a := 0x40, flags.c := true }
    ends s { s with pc := 0x0201, a := 0x81, flags.c := false, flags.n := true, owed := 2 } [] = true := by decide +kernel

theorem test_V74_rorAcc :
    let s : State := { program 0x0200 [0x6A] [] with a := 0x02, flags.c := true }
    ends s { s with pc := 0x0201, a := 0x81, flags.c := false, flags.n := true, owed := 2 } [] = true := by decide +kernel

theorem test_V75_rorZp :
    let s : State := { program 0x0200 [0x66, 0x10] [(0x0010, 0x00)] with flags.c := true }
    ends s { s with pc := 0x0202, flags.c := false, flags.n := true, owed := 5 } [(0x0010, 0x00), (0x0010, 0x80)] = true := by decide +kernel

theorem test_V78_bpl :
    let s : State := { program 0x0200 [0x10, 0x02] [] with flags.n := false }
    ends s { s with pc := 0x0204, owed := 3 } [] = true := by decide +kernel

theorem test_V79_bmi :
    let s : State := { program 0x0200 [0x30, 0x02] [] with flags.n := false }
    ends s { s with pc := 0x0202, owed := 2 } [] = true := by decide +kernel

theorem test_V80_bvc :
    let s : State := { program 0x0200 [0x50, 0xFE] [] with flags.v := false }
    ends s { s with pc := 0x0200, owed := 3 } [] = true := by decide +kernel

theorem test_V81_bvs :
    let s : State := { program 0x0280 [0x70, 0x80] [] with flags.v := true }
    ends s { s with pc := 0x0202, owed := 3 } [] = true := by decide +kernel

theorem test_V82_bcc :
    let s : State := { program 0x0200 [0x90, 0x7F] [] with flags.c := false }
    ends s { s with pc := 0x0281, owed := 3 } [] = true := by decide +kernel

theorem test_V83_bcs :
    let s : State := { program 0x02F0 [0xB0, 0x10] [] with flags.c := true }
    ends s { s with pc := 0x0302, owed := 4 } [] = true := by decide +kernel

theorem test_V85_bne :
    let s : State := { program 0x02FE [0xD0, 0x00] [] with flags.z := false }
    ends s { s with pc := 0x0300, owed := 4 } [] = true := by decide +kernel

theorem test_V86_beq :
    let s : State := { program 0x0200 [0xF0, 0xFF] [] with flags.z := true }
    ends s { s with pc := 0x0201, owed := 3 } [] = true := by decide +kernel

theorem test_V87_jmpAbs :
    let s : State := program 0x0200 [0x4C, 0x00, 0xC0] []
    ends s { s with pc := 0xC000, owed := 3 } [] = true := by decide +kernel

theorem test_V90_rts :
    let s : State := { program 0x0200 [0x60] [(0x01FC, 0x02), (0x01FD, 0x80)] with sp := 0xFB }
    ends s { s with pc := 0x8003, sp := 0xFD, owed := 6 } [] = true := by decide +kernel

theorem test_V91_rts :
    let s : State := { program 0x0200 [0x60] [(0x01FE, 0xFF), (0x01FF, 0xFF)] with sp := 0xFD }
    ends s { s with pc := 0x0000, sp := 0xFF, owed := 6 } [] = true := by decide +kernel

theorem test_V92_rti :
    let s : State := { program 0x0200 [0x40] [(0x01FB, 0x24), (0x01FC, 0x34), (0x01FD, 0x12)] with sp := 0xFA }
    ends s { s with pc := 0x1234, sp := 0xFD, owed := 6 } [] = true := by decide +kernel

theorem test_V93_rti :
    let s : State := { program 0x0200 [0x40] [(0x01FB, 0xDB), (0x01FC, 0x00), (0x01FD, 0x80)] with sp := 0xFA }
    ends s { s with pc := 0x8000, sp := 0xFD, flags.c := true, flags.z := true, flags.i := false, flags.d := true, flags.b := true, flags.v := true, flags.n := true, owed := 6 } [] = true := by decide +kernel

theorem test_V96_pha :
    let s : State := { program 0x0200 [0x48] [] with a := 0x11 }
    ends s { s with pc := 0x0201, sp := 0xFC, owed := 3 } [(0x01FD, 0x11)] = true := by decide +kernel

theorem test_V97_pha :
    let s : State := { program 0x0200 [0x48] [] with a := 0x11, sp := 0x00 }
    ends s { s with pc := 0x0201, sp := 0xFF, owed := 3 } [(0x0100, 0x11)] = true := by decide +kernel

theorem test_V98_php :
    let s : State := program 0x0200 [0x08] []
    ends s { s with pc := 0x0201, sp := 0xFC, owed := 3 } [(0x01FD, 0x34)] = true := by decide +kernel

theorem test_V99_php :
    let s : State := { program 0x0200 [0x08] [] with flags.c := true, flags.z := true, flags.i := false, flags.d := true, flags.v := true, flags.n := true }
    ends s { s with pc := 0x0201, sp := 0xFC, owed := 3 } [(0x01FD, 0xFB)] = true := by decide +kernel

theorem test_V100_pla :
    let s : State := { program 0x0200 [0x68] [(0x01FD, 0x00)] with sp := 0xFC }
    ends s { s with pc := 0x0201, sp := 0xFD, flags.z := true, owed := 4 } [] = true := by decide +kernel

theorem test_V101_pla :
    let s : State := { program 0x0200 [0x68] [(0x0100, 0x80)] with sp := 0xFF }
    ends s { s with pc := 0x0201, a := 0x80, sp := 0x00, flags.n := true, owed := 4 } [] = true := by decide +kernel

theorem test_V102_plp :
    let s : State := { program 0x0200 [0x28] [(0x01FD, 0xFF)] with sp := 0xFC }
    ends s { s with pc := 0x0201, sp := 0xFD, flags.c := true, flags.z := true, flags.d := true, flags.b := true, flags.v := true, flags.n := true, owed := 4 } [] = true := by decide +kernel

theorem test_V104_clc :
    let s : State := { program 0x0200 [0x18] [] with flags.c := true }
    ends s { s with pc := 0x0201, flags.c := false, owed := 2 } [] = true := by decide +kernel

theorem test_V105_sec :
    let s : State := program 0x0200 [0x38] []
    ends s { s with pc := 0x0201, flags.c := true, owed := 2 } [] = true := by decide +kernel

theorem test_V106_cli :
    let s : State := program 0x0200 [0x58] []
    ends s { s with pc := 0x0201, flags.i := false, owed := 2 } [] = true := by decide +kernel

theorem test_V107_sei :
    let s : State := { program 0x0200 [0x78] [] with flags.i := false }
    ends s { s with pc := 0x0201, flags.i := true, owed := 2 } [] = true := by decide +kernel

theorem test_V108_cld :
    let s : State := { program 0x0200 [0xD8] [] with flags.d := true }
    ends s { s with pc := 0x0201, flags.d := false, owed := 2 } [] = true := by decide +kernel

theorem test_V109_sed :
    let s : State := program 0x0200 [0xF8] []
    ends s { s with pc := 0x0201, flags.d := true, owed := 2 } [] = true := by decide +kernel

theorem test_V110_clv :
    let s : State := { program 0x0200 [0xB8] [] with flags.v := true }
    ends s { s with pc := 0x0201, flags.v := false, owed := 2 } [] = true := by decide +kernel

theorem test_V111_nop :
    let s : State := program 0x0200 [0xEA] []
    ends s { s with pc := 0x0201, owed := 2 } [] = true := by decide +kernel

theorem test_V113_nopAbs :
    let s : State := program 0x0200 [0x0C, 0x00, 0x20] []
    ends s { s with pc := 0x0203, owed := 4 } [] = true := by decide +kernel

theorem test_V115_nop1A :
    let s : State := program 0x0200 [0x1A] []
    ends s { s with pc := 0x0201, owed := 2 } [] = true := by decide +kernel

theorem test_V116_laxZp :
    let s : State := program 0x0200 [0xA7, 0x10] [(0x0010, 0x80)]
    ends s { s with pc := 0x0202, a := 0x80, x := 0x80, flags.n := true, owed := 3 } [] = true := by decide +kernel

theorem test_V118_saxZp :
    let s : State := { program 0x0200 [0x87, 0x10] [] with a := 0xF0, x := 0x3C }
    ends s { s with pc := 0x0202, owed := 3 } [(0x0010, 0x30)] = true := by decide +kernel

theorem test_V119_dcpZp :
    let s : State := { program 0x0200 [0xC7, 0x10] [(0x0010, 0x11)] with a := 0x10 }
    ends s { s with pc := 0x0202, flags.c := true, flags.z := true, owed := 5 } [(0x0010, 0x11), (0x0010, 0x10)] = true := by decide +kernel

theorem test_V120_iscZp :
    let s : State := { program 0x0200 [0xE7, 0x10] [(0x0010, 0xFF)] with a := 0x05, flags.c := true }
    ends s { s with pc := 0x0202, owed := 5 } [(0x0010, 0xFF), (0x0010, 0x00)] = true := by decide +kernel

theorem test_V121_sloZp :
    let s : State := { program 0x0200 [0x07, 0x10] [(0x0010, 0x81)] with a := 0x01 }
    ends s { s with pc := 0x0202, a := 0x03, flags.c := true, owed := 5 } [(0x0010, 0x81), (0x0010, 0x02)] = true := by decide +kernel

theorem test_V122_rlaZp :
    let s : State := { program 0x0200 [0x27, 0x10] [(0x0010, 0x80)] with a := 0xFF, flags.c := true }
    ends s { s with pc := 0x0202, a := 0x01, owed := 5 } [(0x0010, 0x80), (0x0010, 0x01)] = true := by decide +kernel

theorem test_V123_sreZp :
    let s : State := { program 0x0200 [0x47, 0x10] [(0x0010, 0x03)] with a := 0x01 }
    ends s { s with pc := 0x0202, a := 0x00, flags.c := true, flags.z := true, owed := 5 } [(0x0010, 0x03), (0x0010, 0x01)] = true := by decide +kernel

theorem test_V124_rraZp :
    let s : State := { program 0x0200 [0x67, 0x10] [(0x0010, 0x03)] with a := 0x10, flags.c := false }
    ends s { s with pc := 0x0202, a := 0x12, owed := 5 } [(0x0010, 0x03), (0x0010, 0x01)] = true := by decide +kernel

theorem test_V125_ancImm0B :
    let s : State := { program 0x0200 [0x0B, 0x80] [] with a := 0xFF }
    ends s { s with pc := 0x0202, a := 0x80, flags.c := true, flags.n := true, owed := 2 } [] = true := by decide +kernel

theorem test_V126_ancImm2B :
    let s : State := { program 0x0200 [0x2B, 0x7F] [] with a := 0xFF, flags.c := true }
    ends s { s with pc := 0x0202, a := 0x7F, flags.c := false, owed := 2 } [] = true := by decide +kernel

theorem test_V127_alr :
    let s : State := { program 0x0200 [0x4B, 0x03] [] with a := 0xFF }
    ends s { s with pc := 0x0202, a := 0x01, flags.c := true, owed := 2 } [] = true := by decide +kernel

theorem test_V128_arr :
    let s : State := { program 0x0200 [0x6B, 0xFF] [] with a := 0xFF, flags.c := true }
    ends s { s with pc := 0x0202, flags.n := true, owed := 2 } [] = true := by decide +kernel

theorem test_V129_arr :
    let s : State := { program 0x0200 [0x6B, 0x40] [] with a := 0xFF, flags.c := false }
    ends s { s with pc := 0x0202, a := 0x20, flags.v := true, owed := 2 } [] = true := by decide +kernel

theorem test_V130_axs :
    let s : State := { program 0x0200 [0xCB, 0x10] [] with a := 0xFF, x := 0x0F }
    ends s { s with pc := 0x0202, x := 0xFF, flags.n := true, owed := 2 } [] = true := by decide +kernel

theorem test_V131_axs :
    let s : State := { program 0x0200 [0xCB, 0x0F] [] with a := 0xFF, x := 0x0F }
    ends s { s with pc := 0x0202, x := 0x00, flags.c := true, flags.z := true, owed := 2 } [] = true := by decide +kernel

/-- V12 moved into RAM: the high byte of the pointer comes from the same page (R281). -/
theorem test_jmpInd_page : let s := program 0x0200 [0x6C, 0xFF, 0x03] [(0x0300, 0x40), (0x03FF, 0x80), (0x0400, 0x50)]
    ends s { s with pc := 0x4080, owed := 5 } [] = true := by decide +kernel

theorem test_V88_jsr : let s := rom [0x20, 0x00, 0x90] []
    ends s { s with pc := 0x9000, sp := 0xFB, owed := 6 } [(0x01FD, 0x80), (0x01FC, 0x02)] = true := by decide +kernel

theorem test_V89_jsr : let s := { rom [0x20, 0x00, 0x90] [] with sp := 0x00 }
    ends s { s with pc := 0x9000, sp := 0xFE, owed := 6 } [(0x0100, 0x80), (0x01FF, 0x02)] = true := by decide +kernel

/-- V94 with `I` = 1, so that the end does not depend on `BRK_SETS_I`: the pushed status byte is 0x34. -/
theorem test_brk : let s := rom [0x00, 0xEA] [(0xFFFF, 0x90)]
    ends s { s with pc := 0x9000, sp := 0xFA, owed := 7 } [(0x01FD, 0x80), (0x01FC, 0x02), (0x01FB, 0x34)] = true := by
  decide +kernel

theorem test_V132_jam02 : let s := rom [0x02] []
    ends s { s with status := .faulted (.unsupportedOpcode 0x02 0x8000) } [] = true := by decide +kernel
theorem test_V133_xaa : let s := rom [0x8B, 0x00] []
    ends s { s with status := .faulted (.unsupportedOpcode 0x8B 0x8000) } [] = true := by decide +kernel
theorem test_V134_las : let s := rom [0xBB, 0x00, 0x02] []
    ends s { s with status := .faulted (.unsupportedOpcode 0xBB 0x8000) } [] = true := by decide +kernel

/-! ### Interrupts (section 4) -/

/-- The setup of I1 to I4. -/
def interruptSetup : State := { rom [0xEA] [(0xFFFB, 0x90), (0xFFFF, 0xA0)] with flags.c := true }

theorem test_I1_nmi : let s := { interruptSetup with nmiPending := true }
    ends s { s with pc := 0x9000, sp := 0xFA, nmiPending := false, owed := 7 }
      [(0x01FD, 0x80), (0x01FC, 0x00), (0x01FB, 0x25)] = true := by decide +kernel
theorem test_I2_irq_masked : let s := { interruptSetup with irqPending := true }
    ends s { s with pc := 0x8001, owed := 2 } [] = true := by decide +kernel
theorem test_I3_irq : let s := { interruptSetup with irqPending := true, flags.i := false }
    ends s { s with pc := 0xA000, sp := 0xFA, irqPending := false, owed := 7 }
      [(0x01FD, 0x80), (0x01FC, 0x00), (0x01FB, 0x21)] = true := by decide +kernel
theorem test_I4_nmi_first : let s := { interruptSetup with nmiPending := true, irqPending := true, flags.i := false }
    ends s { s with pc := 0x9000, sp := 0xFA, nmiPending := false, owed := 7 }
      [(0x01FD, 0x80), (0x01FC, 0x00), (0x01FB, 0x21)] = true := by decide +kernel

/-! ### The bus (section 6) -/

theorem test_B1_mirrors : let s := memWrite 0x0000 0x42 State.reset
    s.peek 0x0800 = 0x42 ∧ s.peek 0x1000 = 0x42 ∧ s.peek 0x1800 = 0x42 := by decide +kernel
theorem test_B2_slots : State.reset.peek 0x2002 = Config.ppuRegRead 0 2 ∧
    State.reset.peek 0x3FFA = Config.ppuRegRead 0 2 := ⟨rfl, rfl⟩
theorem test_B3_staAbs : let s := { program 0x0200 [0x8D, 0x00, 0x50] [] with a := 0x77 }
    ends s { s with pc := 0x0203, owed := 4 } [(0x5000, 0x77)] = true := by decide +kernel
theorem test_B4_ldaAbs : let s := { program 0x0200 [0xAD, 0x00, 0x50] [] with a := 0x77 }
    ends s { s with pc := 0x0203, a := 0x00, flags.z := true, owed := 4 } [] = true := by decide +kernel
theorem test_B6_prgRam : let s := memWrite 0x6000 0x5A State.reset
    s.peek 0x6000 = 0x5A ∧ s.peek 0x7FFF = 0x00 := by decide +kernel
theorem test_B7_io : State.reset.peek 0x4016 = Config.ioRead 0 0x4016 := rfl
theorem test_B8_horizontal : (ppuRead 0x2000 (ppuWrite 0x2400 0x07 State.reset)).1 = 0x07 := by decide +kernel
theorem test_B9_vertical : let s := ppuWrite 0x2400 0x07 { State.reset with mirroring := .vertical }
    (ppuRead 0x2000 s).1 = 0x00 ∧ (ppuRead 0x2C00 s).1 = 0x07 := by decide +kernel

/-! ### Cartridges (section 7) -/

/-- Why an image is refused. -/
def refusal (image : List Byte) : Option MalformedReason :=
  match parseCartridge image with
  | .error r => some r
  | .ok _ => none

theorem test_L4_unknownMapper : refusal ([0x4E, 0x45, 0x53, 0x1A, 2, 1, 0xA0, 0xB0] ++ List.replicate 8 0) =
    some (.unknownMapper 186) := by decide +kernel
theorem test_L6_noPrgRom : refusal ([0x4E, 0x45, 0x53, 0x1A, 0, 1] ++ List.replicate 10 0) = some .noPrgRom := by
  decide +kernel
theorem test_L7_truncated : refusal ([0x4E, 0x45, 0x53, 0x1A, 2, 1] ++ List.replicate 10 0) = some .truncated := by
  decide +kernel
theorem test_L10_badMagic : refusal ([0x4E, 0x45, 0x53, 0x00, 0, 1, 0x50] ++ List.replicate 9 0) = some .badMagic := by
  decide +kernel

/-! ### Mappers (section 8) -/

theorem test_M2_uxrom : (memWrite 0x8000 0x03 (cartridge (.uxrom 0) 8 0)).prgWin = #v[0xC000, 0xE000, 0x1C000, 0x1E000] := by
  decide +kernel
theorem test_M4_cnrom : (memWrite 0x8000 0x05 (cartridge (.cnrom 0) 2 4)).chrWin =
    #v[0x2000, 0x2400, 0x2800, 0x2C00, 0x3000, 0x3400, 0x3800, 0x3C00] := by decide +kernel
theorem test_M5_axrom : let s := memWrite 0x8000 0x13 (cartridge (.axrom 0) 8 0)
    s.prgWin = #v[0x18000, 0x1A000, 0x1C000, 0x1E000] ∧ s.mirroring = .singleUpper := by decide +kernel
theorem test_M6_colorDreams : let s := memWrite 0x8000 0x21 (cartridge (.colorDreams 0) 8 4)
    s.prgWin = #v[0x8000, 0xA000, 0xC000, 0xE000] ∧ s.chrWin.toList.head? = some 0x4000 := by decide +kernel
theorem test_M7_gxrom : let s := memWrite 0x8000 0x12 (cartridge (.gxrom 0) 8 4)
    s.prgWin = #v[0x8000, 0xA000, 0xC000, 0xE000] ∧ s.chrWin.toList.head? = some 0x4000 := by decide +kernel
theorem test_M8_camerica : (pokes (cartridge (.camerica 0) 8 0) [(0x8000, 0x02)]).prgWin = #v[0, 0x2000, 0x1C000, 0x1E000] ∧
    (pokes (cartridge (.camerica 0) 8 0) [(0xC000, 0x02)]).prgWin = #v[0x8000, 0xA000, 0x1C000, 0x1E000] := by decide +kernel
theorem test_M9_un1rom : (memWrite 0x8000 0x0C (cartridge (.un1rom 0) 8 0)).prgWin =
    #v[0xC000, 0xE000, 0x1C000, 0x1E000] := by decide +kernel
theorem test_M10_unromFixFirst : (cartridge (.unromFixFirst 0) 8 0).prgWin = #v[0, 0x2000, 0, 0x2000] ∧
    (memWrite 0x8000 0x02 (cartridge (.unromFixFirst 0) 8 0)).prgWin = #v[0, 0x2000, 0x8000, 0xA000] := by decide +kernel
theorem test_M12_mmc1 : (pokes (cartridge (.mmc1 (mmc1PowerOn 0)) 16 16)
    [(0x8000, 0), (0x8000, 0), (0x8000, 1), (0x8000, 1), (0x8000, 0),
      (0xE000, 1), (0xE000, 0), (0xE000, 1), (0xE000, 0), (0xE000, 0)]).prgWin =
    #v[0x14000, 0x16000, 0x3C000, 0x3E000] := by decide +kernel
/-- Three data writes from one `PC`: only the first is taken (M15). -/
theorem test_M15_mmc1_filter : (memWrite 0x8000 1 (memWrite 0x8000 1 (memWrite 0x8000 1
    (cartridge (.mmc1 (mmc1PowerOn 0)) 16 16)))).mapper =
    .mmc1 { mmc1PowerOn 0 with shift := 1, count := 1, lastWritePC := some 0 } := by decide +kernel
theorem test_M20_mmc3 : let s := cartridge (.mmc3 mmc3PowerOn) 8 16
    s.prgWin = #v[0, 0, 0x1C000, 0x1E000] ∧ s.chrWin = #v[0, 0x400, 0, 0x400, 0, 0, 0, 0] := by decide +kernel
theorem test_M23_mmc3 : (pokes (cartridge (.mmc3 mmc3PowerOn) 8 16)
    [(0x8000, 0x80), (0x8000, 0x00), (0x8001, 0x05), (0x8000, 0x82), (0x8001, 0x09)]).chrWin =
    #v[0x2400, 0, 0, 0, 0x1000, 0x1400, 0, 0x400] := by decide +kernel
/-- The first four ticks of M24. -/
theorem test_M24_mmc3_irq :
    let s := pokes (cartridge (.mmc3 mmc3PowerOn) 8 16) [(0xC000, 3), (0xC001, 0), (0xE001, 0)]
    (Nat.iterate scanlineTick 3 s).irqPending = false ∧ (Nat.iterate scanlineTick 4 s).irqPending = true := by decide +kernel
/-- Tick 1 of M24 reloads and raises nothing; a tick of a pending IRQ leaves it pending. -/
theorem test_M24_mmc3_reload :
    let s := pokes (cartridge (.mmc3 mmc3PowerOn) 8 16) [(0xC000, 3), (0xC001, 0), (0xE001, 0)]
    (scanlineTick s).irqPending = false ∧
      (scanlineTick s).mapper = .mmc3 { mmc3PowerOn with irqLatch := 3, irqCounter := 3, irqEnabled := true } ∧
      (Nat.iterate scanlineTick 2 { s with irqPending := true }).irqPending = true := by decide +kernel
/-- The events of writes at the ends of the two windows, and of one in neither (R80, R81, R82); the two reset-vector
reads are no events. -/
theorem test_events : (pokes State.reset [(0x2000, 1), (0x3FFF, 2), (0x401F, 3), (0x4020, 4), (0x1FFF, 5)]).events =
    [.ppuRegWrite 0 1, .ppuRegWrite 7 2, .ioWrite 0x401F 3] := by decide +kernel
/-- A palette write is an event at the reduced address, a nametable write is none (R91). -/
theorem test_events_palette : (ppuWrite 0x7F01 9 (ppuWrite 0x3EFF 8 State.reset)).events = [.paletteWrite 0x3F01 9] := by
  decide +kernel
theorem test_M27_namco108 :
    let s := pokes (cartridge (.namco108 namco108PowerOn) 8 0) [(0x8000, 0x06), (0x8001, 0x03), (0xA000, 0x01)]
    s.prgWin = #v[0x6000, 0, 0x1C000, 0x1E000] ∧ s.mirroring = .horizontal := by decide +kernel
theorem test_M28_mmc2 : (cartridge (.mmc2 latchPowerOn) 8 16).prgWin = #v[0, 0x1A000, 0x1C000, 0x1E000] := by decide +kernel
/-- M30: the latch switches after the read of 0x0FD8, and selects `chrFD0`. -/
theorem test_M30_mmc2_latch :
    let s := pokes (cartridge (.mmc2 latchPowerOn) 8 16) [(0xB000, 0x02), (0xC000, 0x03)]
    s.chrWin.toList.take 4 = [0x3000, 0x3400, 0x3800, 0x3C00] ∧
      (ppuRead 0x0FD8 s).2.chrWin.toList.take 4 = [0x2000, 0x2400, 0x2800, 0x2C00] ∧
      (ppuRead 0x0FD9 s).2.chrWin = s.chrWin := by decide +kernel
theorem test_M33_mmc4 : (memWrite 0xA000 0x02 (cartridge (.mmc4 latchPowerOn) 8 0)).prgWin =
    #v[0x8000, 0xA000, 0x1C000, 0x1E000] := by decide +kernel

/-! ### Witnesses: states and operands that meet the hypotheses of the obligations -/

theorem witness_EncodeOfDecode : decode [0x8D, 0x00, 0x02, 0xEA] = .ok (.staAbs 0x0200, [0xEA]) := rfl

/-- Enough operand bytes and one too few, for 0, 1 and 2 of them. -/
theorem witness_EveryOpcodeByteDecodes :
    ((desc 0xEA).mode = .imp ∧ (0 : Nat) ≤ ([] : List Byte).length) ∧
    ((desc 0xA5).mode = .zp ∧ 1 ≤ ([0x10] : List Byte).length ∧ ([] : List Byte).length < 1) ∧
    ((desc 0xAD).mode = .abs ∧ 2 ≤ ([0x10, 0x02] : List Byte).length ∧ ([0x10] : List Byte).length < 2) := by decide

/-- An operand of 0, 1 and 2 bytes, and an unsupported row. -/
theorem witness_StepRunsTheDecodedInstruction :
    ∀ c ∈ ([(program 0x0200 [0xEA] [], .nop), (program 0x0200 [0xA5, 0x10] [], .ldaZp 0x10),
        (program 0x0200 [0xF0, 0xFE] [], .beq 0xFE), (program 0x07FE [0xAD, 0x34] [(0x0000, 0x12)], .ldaAbs 0x1234),
        (program 0x0200 [0x02] [], .jam02)] : List (State × Instr)),
      c.1.Active ∧ c.1.NoInterrupt ∧
        let b0 := c.1.peek c.1.pc
        let b1 := (recordRead c.1.pc b0 c.1).peek (c.1.pc + 1)
        let b2 := (recordRead (c.1.pc + 1) b1 (recordRead c.1.pc b0 c.1)).peek (c.1.pc + 2)
        ((decode [b0, b1, b2]).toOption.map Prod.fst) = some c.2 := by decide +kernel

/-- Each of the three clauses, the last by each of its two conditions. -/
theorem witness_InterruptsComeBeforeTheFetch :
    (∃ s : State, s.Active ∧ s.nmiPending = true) ∧
    (∃ s : State, s.Active ∧ s.nmiPending = false ∧ s.irqPending = true ∧ s.flags.i = false) ∧
    (∃ s : State, s.Active ∧ s.nmiPending = false ∧ s.irqPending = false) ∧
    (∃ s : State, s.Active ∧ s.nmiPending = false ∧ s.irqPending = true ∧ s.flags.i = true) :=
  ⟨⟨{ State.reset with nmiPending := true }, by decide⟩,
    ⟨{ State.reset with irqPending := true, flags.i := false }, by decide⟩, ⟨State.reset, by decide⟩,
    ⟨{ State.reset with irqPending := true }, by decide⟩⟩

theorem witness_InterruptEntry :
    (∃ s : State, s.Active ∧ s.MemoryOk ∧ s.nmiPending = true ∧ s.sp = 0x00) ∧
    (∃ s : State, s.Active ∧ s.MemoryOk ∧ s.nmiPending = false ∧ s.irqPending = true ∧ s.flags.i = false) :=
  ⟨⟨{ State.reset with nmiPending := true, sp := 0x00 }, by decide⟩,
    ⟨{ State.reset with irqPending := true, flags.i := false }, by decide⟩⟩

theorem witness_StoppedSessionsStayStopped :
    (∃ (s : State) (e : FaultRecord) (h : HostAction), s.status = .faulted e ∧ h ≠ .cancel) ∧
    (∃ s : State, s.cancelled = true ∧ s.status = .running) ∧ (∃ s : State, s.Active) :=
  ⟨⟨{ State.reset with status := .faulted (.unsupportedOpcode 0x02 0x8000) }, .unsupportedOpcode 0x02 0x8000, .cpuTick,
      by decide⟩, ⟨{ State.reset with cancelled := true }, by decide⟩, ⟨State.reset, by decide⟩⟩

theorem witness_UnsupportedRowsFault :
    ∀ i ∈ ([.jam02, .jam12, .jam22, .jam32, .jam42, .jam52, .jam62, .jam72, .jam92, .jamB2, .jamD2, .jamF2, .xaa 0, .lxa 0,
      .shaIndy 0, .shaAbsy 0, .shy 0, .shx 0, .tas 0, .las 0] : List Instr),
      i.IsOneOf [.jam, .xaa, .lxa, .sha, .shy, .shx, .tas, .las] := by decide

theorem witness_UnsupportedStepIsPrecise : ∃ s : State, s.Active ∧ s.NoInterrupt ∧ s.irqPending = true ∧ s.peek s.pc = 0xBB :=
  ⟨{ rom [0xBB] [] with irqPending := true }, by decide⟩

theorem witness_CompletionAndCost :
    (Instr.ldaAbsx 0).cls ≠ .unsupported ∧ (Instr.beq 0).cls ≠ .unsupported ∧ (Instr.nopAbsx1C 0).cls ≠ .unsupported ∧
    (Instr.ldaAbsx 0).operand.mode ≠ .rel ∧
    (resolve (.absx 0x02FF) { State.reset with x := 1 }).crossed = true ∧
    (desc (Instr.ldaAbsx 0).opcode).pagePenalty = true := by decide

theorem witness_LoadsWriteTheirRegister :
    (Instr.ldaIndy 0).Is .lda ∧ (Instr.ldxZpy 0).Is .ldx ∧ (Instr.ldyAbsx 0).Is .ldy ∧ (Instr.laxIndx 0).Is .lax := by
  decide

/-- Each store; the address at both ends of RAM and of PRG-RAM. -/
theorem witness_StoresWriteOneByte :
    State.reset.MemoryOk ∧ (Instr.staAbs 0x1FFF).Is .sta ∧ (Instr.stxAbs 0x6000).Is .stx ∧ (Instr.styAbs 0x7FFF).Is .sty ∧
    (Instr.saxAbs 0x0000).Is .sax ∧ (Instr.staAbs 0x1FFF).place State.reset = .mem 0x1FFF ∧ sameByte 0x1FFF 0x07FF := by
  refine ⟨?_, ?_, ?_, ?_, ?_, rfl, .inr ?_⟩ <;> decide

theorem witness_RegisterInstructions :
    Instr.txa.Is .txa ∧ Instr.tya.Is .tya ∧ Instr.tax.Is .tax ∧ Instr.tsx.Is .tsx ∧ Instr.inx.Is .inx ∧ Instr.dex.Is .dex ∧
    Instr.tay.Is .tay ∧ Instr.iny.Is .iny ∧ Instr.dey.Is .dey ∧ Instr.txs.Is .txs := by decide

theorem witness_AdcAddsWithCarry : (Instr.adcImm 0x50).Is .adc ∧ (Instr.adcIndy 0).Is .adc := by decide

theorem witness_SbcSubtractsWithBorrow : (Instr.sbcAbsx 0).Is .sbc ∧ (Instr.sbcImmEB 0).Is .sbc := by decide

theorem witness_LogicAndBit :
    (Instr.andZp 0).Is .and ∧ (Instr.oraIndx 0).Is .ora ∧ (Instr.eorAbsy 0).Is .eor ∧ (Instr.bitZp 0).Is .bit := by decide

theorem witness_ComparesSetCarryZeroNegative :
    (Instr.cmpIndy 0).Is .cmp ∧ (Instr.cpxImm 0).Is .cpx ∧ (Instr.cpyAbs 0).Is .cpy := by decide

theorem witness_IncDecMemory :
    State.reset.MemoryOk ∧ (Instr.incAbsx 0x1FFF).Is .inc ∧ (Instr.decAbs 0x6000).Is .dec ∧
    (0x1FFF : Word).toNat < 0x2000 ∧ 0x6000 ≤ (0x6000 : Word).toNat := by decide

/-- The accumulator form and a memory form of each, with the result and the bit shifted out of a zero byte. -/
theorem witness_ShiftsAndRotates :
    State.reset.MemoryOk ∧ Instr.aslAcc.Is .asl ∧ (Instr.aslZp 0).Is .asl ∧ Instr.lsrAcc.Is .lsr ∧ (Instr.lsrAbs 0).Is .lsr ∧
    Instr.rolAcc.Is .rol ∧ (Instr.rolZpx 0).Is .rol ∧ Instr.rorAcc.Is .ror ∧ (Instr.rorAbsx 0).Is .ror ∧
    Instr.aslAcc.operand.mode = .acc ∧ (Instr.aslZp 0).operand.mode ≠ .acc ∧
    (let m := Instr.aslAcc.operandByte State.reset
     (0 : Byte) = BitVec.ofNat 8 (2 * m.toNat) ∧ false = decide (128 ≤ m.toNat)) := by decide

/-- Each alternative of the result, on a row of each of the operations named, and each storing operation. -/
theorem witness_ReadModifyWriteOrder :
    (([.incZp 0, .rraIndy 0, .aslAbs 0, .rolZpx 0, .lsrZp 0, .rorAbsx 0, .decZp 0, .dcpIndx 0, .iscZp 0, .sloZp 0, .rlaZp 0,
      .sreZp 0] : List Instr).all fun i => (desc i.opcode).rmw) = true ∧
    (Instr.incZp 0).IsOneOf [.inc, .isc] ∧ (Instr.iscZp 0).IsOneOf [.inc, .isc] ∧
    (Instr.decZp 0).IsOneOf [.dec, .dcp] ∧ (Instr.dcpIndx 0).IsOneOf [.dec, .dcp] ∧
    (Instr.aslAbs 0).IsOneOf [.asl, .slo] ∧ (Instr.sloZp 0).IsOneOf [.asl, .slo] ∧
    (Instr.rolZpx 0).IsOneOf [.rol, .rla] ∧ (Instr.rlaZp 0).IsOneOf [.rol, .rla] ∧
    (Instr.lsrZp 0).IsOneOf [.lsr, .sre] ∧ (Instr.sreZp 0).IsOneOf [.lsr, .sre] ∧
    (Instr.rorAbsx 0).IsOneOf [.ror, .rra] ∧ (Instr.rraIndy 0).IsOneOf [.ror, .rra] ∧
    (Instr.staZp 0).Is .sta ∧ (Instr.stxZpy 0).Is .stx ∧ (Instr.styZp 0).Is .sty ∧ (Instr.saxZp 0).Is .sax := by
  refine ⟨by decide +kernel, ?_⟩
  repeat' apply And.intro
  all_goals decide +kernel

theorem witness_ReadingInstructionsReadOnce :
    (Instr.ldaImm 0).IsOneOf [.lda, .ldx, .ldy, .lax, .adc, .sbc, .and, .ora, .eor, .bit, .cmp, .cpx, .cpy, .anc, .alr, .arr,
      .axs, .bpl, .bmi, .bvc, .bvs, .bcc, .bcs, .bne, .beq] ∧
    (Instr.beq 0).IsOneOf [.lda, .ldx, .ldy, .lax, .adc, .sbc, .and, .ora, .eor, .bit, .cmp, .cpx, .cpy, .anc, .alr, .arr,
      .axs, .bpl, .bmi, .bvc, .bvs, .bcc, .bcs, .bne, .beq] := by decide

/-- Each branch, taken and not taken. -/
theorem witness_BranchesFollowTheirFlag :
    ((Instr.bpl 0).Is .bpl ∧ true = !State.reset.flags.n) ∧ ((Instr.bmi 0).Is .bmi ∧ false = State.reset.flags.n) ∧
    ((Instr.bvc 0).Is .bvc ∧ true = !State.reset.flags.v) ∧ ((Instr.bvs 0).Is .bvs ∧ false = State.reset.flags.v) ∧
    ((Instr.bcc 0).Is .bcc ∧ true = !State.reset.flags.c) ∧ ((Instr.bcs 0).Is .bcs ∧ false = State.reset.flags.c) ∧
    ((Instr.bne 0).Is .bne ∧ true = !State.reset.flags.z) ∧ ((Instr.beq 0).Is .beq ∧ false = State.reset.flags.z) := by
  decide

/-- Of JsrPushesTheReturnAddress, JsrThenRtsReturns, EntryThenRtiResumes, BrkEntersThroughTheIrqVector and
WriteThenRead too: the one hypothesis is that the arrays are in canonical form. -/
theorem witness_PushesAndPulls :
    State.reset.MemoryOk ∧ State.reset.SizesOk ∧ (program 0x0200 [0x48] [(0x01FF, 0x80)]).MemoryOk := by decide +kernel

theorem witness_JsrPushesTheReturnAddress : ∃ s : State, s.MemoryOk ∧ s.sp = 0x00 := ⟨{ State.reset with sp := 0 }, by decide⟩
theorem witness_JsrThenRtsReturns : ∃ s : State, s.MemoryOk ∧ s.sp = 0xFF := ⟨{ State.reset with sp := 0xFF }, by decide⟩
theorem witness_EntryThenRtiResumes : ∃ s : State, s.MemoryOk ∧ s.sp = 0x01 := ⟨{ State.reset with sp := 1 }, by decide⟩
theorem witness_BrkEntersThroughTheIrqVector : ∃ s : State, s.MemoryOk ∧ s.sp = 0x02 :=
  ⟨{ State.reset with sp := 2 }, by decide⟩

theorem witness_FlagInstructionsAndNops :
    Instr.nop.Is .nop ∧ (Instr.nopAbsx1C 0).Is .nop ∧ (Instr.nopImm80 0).Is .nop ∧
    (∃ f : Flags, (Instr.sei = .sei ∧ f = { State.reset.flags with i := true })) := ⟨by decide, by decide, by decide, _, rfl, rfl⟩

/-- Each of the six, from the reset state with every byte 0. -/
theorem witness_UnofficialReadModifyWrite :
    State.reset.MemoryOk ∧ (Instr.dcpZp 0).Is .dcp ∧ (Instr.iscAbs 0).Is .isc ∧ (Instr.sloAbsy 0).Is .slo ∧
    (Instr.rlaIndx 0).Is .rla ∧ (Instr.sreZpx 0).Is .sre ∧ (Instr.rraAbsx 0).Is .rra ∧
    (let m := (Instr.sloAbsy 0).operandByte State.reset
     (0 : Byte) = BitVec.ofNat 8 (2 * m.toNat) ∧ (0 : Byte) = State.reset.a ||| 0) := by decide

theorem witness_UnofficialImmediates :
    (Instr.ancImm0B 0).Is .anc ∧ (Instr.ancImm2B 0).Is .anc ∧ (Instr.alr 0).Is .alr ∧ (Instr.arr 0).Is .arr ∧
    (Instr.axs 0).Is .axs := by decide

/-- Both ends of every range of the CPU map. -/
theorem witness_CpuAddressMap :
    State.reset.Inv ∧ ((0x0000 : Word).toNat < 0x2000 ∧ (0x1FFF : Word).toNat < 0x2000) ∧
    (([0x2000, 0x3FFF] : List Word).all fun a => 0x2000 ≤ a.toNat && a.toNat < 0x4000) ∧
    (([0x4000, 0x401F] : List Word).all fun a => 0x4000 ≤ a.toNat && a.toNat < 0x4020) ∧
    (([0x4020, 0x5FFF] : List Word).all fun a => 0x4020 ≤ a.toNat && a.toNat < 0x6000) ∧
    (([0x6000, 0x7FFF] : List Word).all fun a => 0x6000 ≤ a.toNat && a.toNat < 0x8000) ∧
    (([0x8000, 0xFFFF] : List Word).all fun a => 0x8000 ≤ a.toNat) := by decide

theorem witness_WriteThenRead : State.reset.SizesOk ∧ State.reset.MemoryOk ∧
    (([0x0000, 0x1FFF, 0x6000, 0x7FFF] : List Word).all fun a => a.toNat < 0x2000 || (0x6000 ≤ a.toNat && a.toNat < 0x8000)) ∧
    (([0x2000, 0x5FFF] : List Word).all fun a => 0x2000 ≤ a.toNat && a.toNat < 0x6000) := by decide

/-- Both ends of every range of the picture-unit map, and a number above 0x3FFF. -/
theorem witness_PpuSpace :
    (([0x0000, 0x1FFF, 0x5FFF] : List Nat).all fun n => n % 0x4000 < 0x2000) = true ∧
    (([0x2000, 0x3EFF, 0x6000] : List Nat).all fun n => 0x2000 ≤ n % 0x4000 ∧ n % 0x4000 < 0x3F00) = true ∧
    (([0x3F00, 0x3FFF, 0x7FFF] : List Nat).all fun n => 0x3F00 ≤ n % 0x4000) = true ∧
    (∃ s : State, s.cart.chrUnits = 0 ∧ (∀ r, s.mapper ≠ .mmc2 r) ∧ (∀ r, s.mapper ≠ .mmc4 r)) ∧
    (∃ s : State, s.cart.chrUnits ≠ 0 ∧ (∀ r, s.mapper ≠ .mmc2 r) ∧ (∀ r, s.mapper ≠ .mmc4 r)) :=
  ⟨by decide, by decide, by decide,
    ⟨{ State.reset with cart := { blankCartridge with chrUnits := 0 } }, rfl, fun _ => nofun, fun _ => nofun⟩,
    ⟨{ State.reset with cart := { blankCartridge with chrUnits := 1 } }, nofun, fun _ => nofun, fun _ => nofun⟩⟩

/-- The last index of PRG-RAM and the first after it, with a list as long as the array and one byte longer. -/
theorem witness_SaveAndLoadPrgRam : State.reset.MemoryOk ∧ 8191 < 8192 * State.reset.cart.prgRamUnits ∧
    ¬ 8192 < 8192 * State.reset.cart.prgRamUnits := by decide

/-- Every variant of the rule, at both ends of the register space. -/
theorem witness_SingleRegisterMappers :
    (0x8000 ≤ (0x8000 : Word).toNat ∧ 0x8000 ≤ (0xBFFF : Word).toNat ∧ 0xC000 ≤ (0xC000 : Word).toNat) ∧
    ∀ m ∈ ([.nrom, .uxrom 0, .cnrom 0, .axrom 0, .colorDreams 0, .gxrom 0, .camerica 0, .un1rom 0, .unromFixFirst 0] :
      List Mapper), 1 ≤ (cartridge m 1 0).cart.prgUnits ∧ (cartridge m 1 0).mapper = m := by
  decide +kernel

/-- The filter, a reset write, the fourth and the fifth bit, for the ends of the four address ranges. -/
theorem witness_Mmc1SerialPort :
    let r := mmc1PowerOn 0
    let s := cartridge (.mmc1 r) 1 0
    s.mapper = .mmc1 r ∧ (([0x8000, 0x9FFF, 0xA000, 0xBFFF, 0xC000, 0xDFFF, 0xE000, 0xFFFF] : List Word).all fun a => 0x8000 ≤ a.toNat) ∧
    ({ r with lastWritePC := some s.pc } : Mmc1).lastWritePC = some s.pc ∧ r.lastWritePC ≠ some s.pc ∧
    128 ≤ (0x80 : Byte).toNat ∧ (0x7F : Byte).toNat < 128 ∧
    ({ r with count := 3 } : Mmc1).count.val < 4 ∧ ({ r with count := 4 } : Mmc1).count.val = 4 := by decide +kernel

theorem witness_Mmc1Offsets : 1 ≤ (cartridge (.mmc1 (mmc1PowerOn 0)) 1 0).cart.prgUnits := by decide +kernel

theorem witness_IndexedBankRegisters :
    (cartridge (.mmc3 mmc3PowerOn) 1 0).mapper = .mmc3 mmc3PowerOn ∧
    (cartridge (.namco108 namco108PowerOn) 1 0).mapper = .namco108 namco108PowerOn ∧
    (([0x8000, 0x9FFF, 0xA000, 0xBFFF, 0xC000, 0xDFFF, 0xE000, 0xFFFF] : List Word).all fun a => 0x8000 ≤ a.toNat) := by
  decide +kernel

theorem witness_Mmc3Offsets : 1 ≤ (cartridge (.mmc3 mmc3PowerOn) 1 0).cart.prgUnits := by decide +kernel

/-- A counter of 1 and of 255, a counter and latch of 0, another variant, an active session. -/
theorem witness_Mmc3ScanlineCounter :
    (∀ c : Fin 2, let r : Mmc3 := { mmc3PowerOn with irqCounter := if c = 0 then 1 else 255, irqEnabled := true }
      (cartridge (.mmc3 r) 1 0).mapper = .mmc3 r ∧ 1 ≤ r.irqCounter.toNat ∧ (cartridge (.mmc3 r) 1 0).irqPending = false) ∧
    (mmc3PowerOn.irqCounter = 0 ∧ mmc3PowerOn.irqLatch = 0 ∧ State.reset.mapper = .nrom ∧ State.reset.Active) ∧
    (let r : Mmc3 := { mmc3PowerOn with irqLatch := 3, irqEnabled := true };
      (cartridge (.mmc3 r) 1 0).mapper = .mmc3 r ∧ r.irqCounter.toNat = 0 ∧ r.irqLatch ≠ 0) ∧
    (let r : Mmc3 := { mmc3PowerOn with irqCounter := 255 };
      let s : State := { cartridge (.mmc3 r) 1 0 with irqPending := true };
      s.mapper = .mmc3 r ∧ r.irqCounter.toNat = 254 + 1) := by
  decide +kernel

/-- Both variants, the ends of every register range, and the trigger addresses with their neighbours. -/
theorem witness_LatchRegistersAndReads :
    (cartridge (.mmc2 latchPowerOn) 1 0).mapper = .mmc2 latchPowerOn ∧
    (cartridge (.mmc4 latchPowerOn) 1 0).mapper = .mmc4 latchPowerOn ∧ 1 ≤ (cartridge (.mmc4 latchPowerOn) 1 0).cart.prgUnits ∧
    (([0x8000, 0x9FFF, 0xA000, 0xAFFF, 0xB000, 0xFFFF] : List Word).all fun a => 0x8000 ≤ a.toNat) ∧
    (∀ n ∈ ([0x0FD7, 0x0FD8, 0x0FDF, 0x0FE0, 0x0FE7, 0x0FE8, 0x0FEF, 0x0FF0, 0x1FD8, 0x1FDF, 0x1FE8, 0x1FEF] : List Nat),
      n < 0x2000) := by decide +kernel

/-- An MMC2 takes the two single addresses, an MMC4 their groups (R182). -/
theorem test_triggers_at_the_ends :
    mmc2Trigger 0x0FD8 = some (false, .fd) ∧ mmc2Trigger 0x0FD9 = none ∧ mmc4Trigger 0x0FDF = some (false, .fd) ∧
    mmc4Trigger 0x0FE0 = none ∧ mmc2Trigger 0x0FEF = none ∧ mmc4Trigger 0x0FEF = some (false, .fe) ∧
    mmc2Trigger 0x1FDF = some (true, .fd) ∧ mmc4Trigger 0x1FE8 = some (true, .fe) ∧ mmc4Trigger 0x1FF0 = none := by decide

theorem witness_StepsKeepTheInvariant : ∃ s t : State, s.Inv ∧ step s = .next t :=
  ⟨program 0x0200 [0xEA] [], _, by decide +kernel, rfl⟩

theorem witness_HostActionsKeepTheInvariant : State.reset.Inv ∧ State.reset.Coherent := ⟨by decide, rfl⟩

theorem witness_StepsKeepTheWindowsCoherent : ∃ s t : State, s.Coherent ∧ step s = .next t :=
  ⟨program 0x0200 [0xEA] [], _, rfl, rfl⟩

theorem witness_StepsNeverTouch : ∃ s t : State, step s = .next t ∧ t.bus ≠ s.bus :=
  ⟨program 0x0200 [0xEA] [], _, rfl, by decide +kernel⟩

/-- A step of exec that changes D, one that changes I and one that changes B. -/
theorem witness_WhoWritesDecimalInterruptAndBreak :
    (∃ t, exec .sed State.reset = .next t ∧ t.flags.d ≠ State.reset.flags.d) ∧
    (∃ t, exec .cli State.reset = .next t ∧ t.flags.i ≠ State.reset.flags.i) ∧
    (∃ t, exec .plp { program 0x0200 [] [(0x01FE, 0x10)] with sp := 0xFD } = .next t ∧ t.flags.b ≠ State.reset.flags.b) :=
  ⟨⟨_, rfl, by decide +kernel⟩, ⟨_, rfl, by decide +kernel⟩, ⟨_, rfl, by decide +kernel⟩⟩

/-- The smallest image: mapper 0, one unit of PRG-ROM, CHR-RAM. -/
def smallImage : List Byte := [0x4E, 0x45, 0x53, 0x1A, 1, 0, 0, 0, 0, 0, 0, 0, 0, 0, 0, 0] ++ List.replicate 16384 0xEA

/-- The image loads, and one byte less is refused. -/
theorem witness_PowerOnState : loadCartridge smallImage Init.zero = .ok (powerOn (parseFields smallImage) .nrom Init.zero) := by
  have hl : smallImage.length = 16400 := by simp only [smallImage, List.length_append, List.length_replicate]; rfl
  have hs : headerPrgStart smallImage + headerPrgLen smallImage + headerChrLen smallImage = 16400 := rfl
  have hm : mapperOfNumber (headerMapper smallImage).toNat = some .nrom := rfl
  have h4 : ¬ smallImage.getD 4 0 = 0 := by decide
  have hg : (smallImage.take 4 != cartridgeMagic) = false := by decide
  simp only [loadCartridge, parseCartridge, hl, hs, hm, hg, if_neg h4, Nat.lt_irrefl, Bool.false_eq_true, if_false,
    Nat.reduceLT]

theorem witness_CpuTickRunsAStepThenCountsDown :
    (∃ s : State, s.Active ∧ 0 < s.owed) ∧ (∃ s : State, s.Active ∧ s.owed = 0) ∧ (∃ s : State, s.Active ∧ 3 ≤ s.owed) ∧
    (∃ s : State, ¬ s.Active) :=
  ⟨⟨{ State.reset with owed := 1 }, by decide⟩, ⟨State.reset, by decide⟩, ⟨{ State.reset with owed := 3 }, by decide⟩,
    ⟨{ State.reset with cancelled := true }, by decide⟩⟩

/-- The latch set under a countdown and under another action; a faulted session; an instruction that ends in a state. -/
theorem witness_TriggerNmiSetsTheLatch :
    (∃ s : State, s.Active) ∧
    (∃ (s : State) (h : HostAction), s.nmiPending = true ∧ h ≠ .cpuTick) ∧
    (∃ (s : State) (h : HostAction), s.nmiPending = true ∧ h = .cpuTick ∧ 0 < s.owed) ∧
    (∃ (s : State) (e : FaultRecord), s.status = .faulted e) ∧
    (∃ t, exec .inx State.reset = .next t) :=
  ⟨⟨State.reset, by decide⟩, ⟨{ State.reset with nmiPending := true }, .scanlineTick, by decide⟩,
    ⟨{ State.reset with nmiPending := true, owed := 1 }, .cpuTick, by decide⟩,
    ⟨{ State.reset with status := .faulted (.unsupportedOpcode 0x02 0x8000) }, .unsupportedOpcode 0x02 0x8000, rfl⟩,
    ⟨_, rfl⟩⟩

theorem witness_StatusByteLayout :
    (Instr.plp = .plp ∨ Instr.plp = .rti) ∧ (Instr.rti = .plp ∨ Instr.rti = .rti) := by decide

end Sys2Proof.Tests
end

/-!
PROOFS. The flags and the status byte (spec/10_state.md R39 to R45, R53): which operations write D, I and B, and the
bytes that interrupt entry, BRK, PHP, PLP and RTI exchange with the stack.
-/
namespace Sys2Proof.Machine

/-! ### What the shared operations do to the flags -/

theorem BusOnly.flags {s t : State} (h : BusOnly s t) : t.flags = s.flags := by
  unfold BusOnly at h
  rw [h]

@[simp] theorem operandRead_flags (p : Place) (s : State) : (operandRead p s).2.flags = s.flags :=
  (operandRead_busOnly p s).flags

@[simp] theorem resolve_flags (o : Operand) (s : State) : (resolve o s).state.flags = s.flags :=
  (resolve_busOnly o s).flags

@[simp] theorem push_flags (v : Byte) (s : State) : (push v s).flags = s.flags := by rw [push_eq]

@[simp] theorem push16_flags (w : Word) (s : State) : (push16 w s).flags = s.flags := by rw [push16_eq]

@[simp] theorem pull_flags (s : State) : (pull s).2.flags = s.flags := by rw [pull_eq]

@[simp] theorem pull16_flags (s : State) : (pull16 s).2.flags = s.flags := by rw [pull16_eq]

@[simp] theorem nextByte_flags (s : State) : (nextByte s).2.flags = s.flags := by rw [nextByte_snd]

@[simp] theorem nextByte_sp (s : State) : (nextByte s).2.sp = s.sp := by rw [nextByte_snd]

/-- A branch reads the flags and writes none (R380). -/
@[simp] theorem branch_flags (cond : Flags → Bool) (d : Desc) (p : Place) (s : State) :
    (branch cond d p s).flags = s.flags := by
  unfold branch
  simp only
  split <;> exact operandRead_flags p s

/-- Interrupt entry leaves the flags alone (R53). -/
theorem interrupt_flags (k : Interrupt) (s : State) : (interrupt k s).flags = s.flags := by
  unfold interrupt
  cases k <;> simp only [Interrupt.clear, takeException_flags]

/-! ### D, I and B, which no arithmetic writes -/

/-- The three flags that only the flag instructions, PLP, RTI and BRK write (R39, R40, R41). -/
def Flags.control (f : Flags) : Bool × Bool × Bool := (f.d, f.i, f.b)

theorem Flags.control_eq_iff (f g : Flags) : f.control = g.control ↔ f.d = g.d ∧ f.i = g.i ∧ f.b = g.b := by
  simp [Flags.control]

/-- New values of C, Z, V and N. -/
@[simp] theorem Flags.control_mk (f : Flags) (c z v n : Bool) :
    Flags.control ⟨c, z, f.i, f.d, f.b, v, n⟩ = f.control := rfl

@[simp] theorem Flags.setZN_control (f : Flags) (v : Byte) : (f.setZN v).control = f.control := rfl

@[simp] theorem addC_control (m : Byte) (s : State) : (addC m s).flags.control = s.flags.control := rfl

@[simp] theorem subC_control (m : Byte) (s : State) : (subC m s).flags.control = s.flags.control := rfl

@[simp] theorem compare_control (r m : Byte) (s : State) : (compare r m s).flags.control = s.flags.control := rfl

/-- A store writes no flag; into the accumulator it writes Z and N (R34, R266). -/
@[simp] theorem operandWrite_control (rmw : Bool) (p : Place) (old v : Byte) (s : State) :
    (operandWrite rmw p old v s).flags.control = s.flags.control := by
  cases p with
  | none => rfl
  | acc => rfl
  | inline _ a => cases rmw <;> simp [operandWrite]
  | mem a => cases rmw <;> simp [operandWrite]

/-- The operations that write one of D, I and B. -/
def controlOps : List Operation := [.cld, .sed, .cli, .sei, .brk, .plp, .rti]

/-- Every other operation keeps all three. -/
theorem opBody_control {op : Operation} (h : op ∉ controlOps) (d : Desc) (p : Place) (s : State) :
    (opBody op d p s).flags.control = s.flags.control := by
  cases op
  case cld | sed | cli | sei | brk | plp | rti => exact absurd (by decide) h
  -- the operand into the ALU or a register
  case adc | sbc => simp [opBody, opAdc, opSbc]
  case and | ora | eor | bit => simp [opBody, opAnd, opOra, opEor, opBit]
  case cmp | cpx | cpy => simp [opBody, opCmp, opCpx, opCpy]
  case lda | ldx | ldy | lax => simp [opBody, opLda, opLdx, opLdy, opLax]
  case anc | alr | arr | axs => simp [opBody, opAnc, opAlr, opArr, opAxs]
  -- a store, and read-modify-write
  case sta | stx | sty | sax => simp [opBody, opSta, opStx, opSty, opSax, operandStore]
  case inc | dec => simp [opBody, opInc, opDec]
  case asl | lsr | rol | ror => simp [opBody, opAsl, opLsr, opRol, opRor]
  case dcp | isc => simp [opBody, opDcp, opIsc]
  case slo | rla | sre | rra => simp [opBody, opSlo, opRla, opSre, opRra]
  -- registers and the flags C and V
  case inx | iny | dex | dey => rfl
  case tax | tay | txa | tya | tsx | txs => rfl
  case clc | sec | clv | nop => rfl
  -- the stack, jumps and branches
  case pha | php | pla => simp [opBody, opPha, opPhp, opPla]
  case jsr | rts => simp [opBody, opJsr, opRts]
  case jmp => rfl
  case bpl | bmi | bvc | bvs | bcc | bcs | bne | beq => exact congrArg Flags.control (branch_flags _ d p s)
  case jam | xaa | sha | tas | shy | shx | lxa | las => rfl

/-- BRK writes no flag but I, which it can only set (R393). -/
theorem opBrk_flags (d : Desc) (p : Place) (s : State) :
    (opBrk d p s).flags = { s.flags with i := s.flags.i || Config.brkSetsI } := by
  simp [opBrk, takeException_flags]

/-- What one operation may do to D, I and B. -/
theorem opBody_control_writers (op : Operation) (d : Desc) (p : Place) (s : State) :
    ((opBody op d p s).flags.d ≠ s.flags.d → op ∈ [.cld, .sed, .plp, .rti]) ∧
    ((opBody op d p s).flags.i ≠ s.flags.i → op ∈ [.cli, .sei, .plp, .rti, .brk]) ∧
    ((opBody op d p s).flags.b ≠ s.flags.b → op ∈ [.plp, .rti]) := by
  by_cases h : op ∈ controlOps
  · cases op
    case plp | rti => simp
    case cld | sed | cli | sei => simp [opBody, opCld, opSed, opCli, opSei]
    case brk => simp [opBody, opBrk_flags]
    all_goals exact absurd h (by decide)
  · obtain ⟨hd, hi, hb⟩ := (Flags.control_eq_iff _ _).mp (opBody_control h d p s)
    exact ⟨absurd hd, absurd hi, absurd hb⟩

/-- The flags that `exec` answers are as before, or those that the body of the operation leaves (R260, R480). -/
theorem exec_flags {i : Instr} {s t : State} (h : exec i s = .next t) :
    t.flags = s.flags ∨ ∃ d p u, u.flags = s.flags ∧ t = opBody i.operation d p u := by
  by_cases hu : i.cls = .unsupported
  · rw [exec_unsupported i hu s] at h
    cases h
    exact .inl rfl
  · rw [exec_eq_runInstr i hu s] at h
    cases h
    exact .inr ⟨_, _, _, by simp, rfl⟩

/-- Settles O56: the operations by their bodies, interrupt entry by `takeException_flags`. -/
theorem whoWritesDecimalInterruptAndBreak : Obligations.WhoWritesDecimalInterruptAndBreak := by
  refine ⟨fun i s t h => ?_, interrupt_flags⟩
  obtain hs | ⟨d, p, u, hu, rfl⟩ := exec_flags h
  · rw [hs]
    exact ⟨absurd rfl, absurd rfl, absurd rfl⟩
  · rw [← hu]
    exact opBody_control_writers i.operation d p u

/-! ### The status byte on the stack -/

/-- The bits of the status byte (R44). -/
theorem Flags.pack_bits (f : Flags) (b4 : Bool) :
    (f.pack b4).getLsbD 0 = f.c ∧ (f.pack b4).getLsbD 1 = f.z ∧ (f.pack b4).getLsbD 2 = f.i ∧
    (f.pack b4).getLsbD 3 = f.d ∧ (f.pack b4).getLsbD 4 = b4 ∧ (f.pack b4).getLsbD 5 = true ∧
    (f.pack b4).getLsbD 6 = f.v ∧ (f.pack b4).getLsbD 7 = f.n := by
  rcases f with ⟨c, z, i, d, b, v, n⟩
  revert c z i d b v n b4
  decide

/-- Bit 5 is ignored (R45). -/
theorem Flags.unpack_flip_bit5 (v : Byte) : Flags.unpack (v ^^^ 0x20) = Flags.unpack v := by
  simp [Flags.unpack]

/-- The vectors of NMI, IRQ and BRK lie in PRG-ROM, below the last byte (R475). -/
theorem Interrupt.vector_range (k : Interrupt) : 0x8000 ≤ k.vector.toNat ∧ k.vector.toNat < 0xFFFF := by
  cases k <;> decide

/-- The third byte that an entry pushes is the status byte (R476, R393). -/
theorem takeException_pushes_status (k : Interrupt) (b4 : Bool) (s : State) :
    (takeException k.vector b4 s).bus[2]? = some (.write (stackAddr (s.sp - 2)) (s.flags.pack b4)) := by
  obtain ⟨hl, hh⟩ := k.vector_range
  rw [takeException_eq hl hh]
  rfl

theorem interrupt_pushes_status (k : Interrupt) (s : State) :
    (interrupt k s).bus[2]? = some (.write (stackAddr (s.sp - 2)) (s.flags.pack false)) := by
  rw [← takeException_pushes_status k]
  unfold interrupt
  cases k <;> simp only [Interrupt.clear]

/-- BRK enters as an IRQ does, with bit 4 set (R393). -/
theorem opBrk_pushes_status (d : Desc) (p : Place) (s : State) :
    (opBrk d p s).bus[2]? = some (.write (stackAddr (s.sp - 2)) (s.flags.pack true)) := by
  have h := takeException_pushes_status .irq true (nextByte s).2
  rw [nextByte_flags, nextByte_sp] at h
  exact h

theorem brk_pushes_status (s : State) : ∃ t, exec .brk s = .next t ∧
    t.bus[2]? = some (.write (stackAddr (s.sp - 2)) (s.flags.pack true)) :=
  ⟨_, rfl, opBrk_pushes_status _ _ (charge 0x00 (resolve .imp s))⟩

theorem php_pushes_status (s : State) :
    ∃ t, exec .php s = .next t ∧ t.bus[0]? = some (.write (stackAddr s.sp) (s.flags.pack true)) := by
  refine ⟨_, rfl, ?_⟩
  simp only [opPhp, push_eq]
  rfl

theorem plp_unpacks (s : State) :
    ∃ t, exec .plp s = .next t ∧ t.flags = Flags.unpack (s.peek (stackAddr (s.sp + 1))) := by
  refine ⟨_, rfl, ?_⟩
  simp only [opPlp, pull_eq, peek_stack]
  rfl

theorem rti_unpacks (s : State) :
    ∃ t, exec .rti s = .next t ∧ t.flags = Flags.unpack (s.peek (stackAddr (s.sp + 1))) := by
  refine ⟨_, rfl, ?_⟩
  simp only [opRti, returnFromInterrupt_eq, peek_stack]
  rfl

/-- Settles O34, from the layout of the byte and the push or pull of each of the five. -/
theorem statusByteLayout : Obligations.StatusByteLayout := by
  refine ⟨fun f b4 => ⟨f.pack_eq b4, f.pack_bits b4⟩, fun v => ⟨rfl, Flags.unpack_flip_bit5 v⟩,
    interrupt_pushes_status, brk_pushes_status, php_pushes_status, ?_⟩
  rintro s i (rfl | rfl)
  · exact plp_unpacks s
  · exact rti_unpacks s

end Sys2Proof.Machine

/-!
PROOFS. The CPU bus and the picture-unit bus (spec/20_memory.md R79 to R95, R124 to R126): what an access finds and
changes range by range, and the events it adds.
-/
namespace Sys2Proof.Machine

/-! ### CPU reads, the ranges that are not memory -/

/-- R80: the eight register slots repeat through 0x2000-0x3FFF. -/
theorem peek_ppuReg {s : State} {a : Word} (h : 0x2000 ≤ a.toNat) (h' : a.toNat < 0x4000) :
    s.peek a = Config.ppuRegRead s.draws (BitVec.ofNat 3 a.toNat) := by
  have hs : a.setWidth 3 = BitVec.ofNat 3 a.toNat := BitVec.eq_of_toNat_eq (by simp)
  simp only [State.peek, if_neg (show ¬ a.toNat < 0x2000 by omega), if_pos h', hs]

theorem peek_io {s : State} {a : Word} (h : 0x4000 ≤ a.toNat) (h' : a.toNat < 0x4020) :
    s.peek a = Config.ioRead s.draws a := by
  simp only [State.peek, if_neg (show ¬ a.toNat < 0x2000 by omega), if_neg (show ¬ a.toNat < 0x4000 by omega),
    if_pos h']

/-- The four copies of RAM are one memory (R79). -/
theorem peek_mirror {s : State} {a b : Word} (h : a.toNat < 0x2000) (hb : sameByte a b) : s.peek b = s.peek a := by
  obtain rfl | ⟨_, hlt, hmod⟩ := hb
  · rfl
  · rw [peek_ram h, peek_ram hlt, hmod]

/-- A read draws from an oracle in the register window and the audio/IO range (R80, R81). -/
theorem bit_oracleAddr (a : Word) : bit (oracleAddr a) = if 0x2000 ≤ a.toNat ∧ a.toNat < 0x4020 then 1 else 0 := by
  by_cases h : 0x2000 ≤ a.toNat ∧ a.toNat < 0x4020 <;> simp [bit, oracleAddr, h]

/-! ### Indexes through the windows -/

/-- The window that a CPU address reads through (R122). -/
theorem prgIndex_eq (s : State) {a : Word} (h : 0x8000 ≤ a.toNat) :
    ∃ w : Fin 4, w.val = (a.toNat - 0x8000) / 0x2000 ∧ s.prgIndex a = s.prgWin[w] + a.toNat % 0x2000 := by
  have hw : (a.toNat - 0x8000) / 0x2000 < 4 := by have := a.isLt; omega
  refine ⟨⟨_, hw⟩, rfl, ?_⟩
  simp only [State.prgIndex, Nat.mod_eq_of_lt hw, Fin.getElem_fin]

/-- A window offset that is a multiple of 0x2000 and below PRGLEN leaves room for the low 13 bits (R123, R124). -/
theorem prgWin_index_lt {s : State} (hw : s.WindowsOk) (w : Fin 4) (k : Nat) : s.prgWin[w] + k % 0x2000 < s.prgLen := by
  obtain ⟨hmul, hlt⟩ := hw.1 w
  have hlen := s.prgLen_mod
  omega

/-- The same for a 1KB window of CHR (R126). -/
theorem chrIndex_lt {s : State} (hw : s.WindowsOk) (a : PpuAddr) : s.chrIndex a < s.chrLen := by
  obtain ⟨hmul, hlt⟩ := hw.2 ⟨a.toNat / 0x400 % 8, Nat.mod_lt _ (by decide)⟩
  have hlen := s.chrLen_mod
  simp only [Fin.getElem_fin] at hmul hlt
  unfold State.chrIndex
  omega

/-- Every nametable index lies in VRAM (R89). -/
theorem ntIndex_lt (a : PpuAddr) (m : Mirroring) : ntIndex a m < 2048 := by
  cases m <;> simp only [ntIndex] <;> omega

/-- `NtIndex` (R89) with the tables of Horizontal found by one division. -/
theorem ntIndex_eq (a : PpuAddr) (m : Mirroring) :
    let nt := (a.toNat - 0x2000) % 0x1000
    ntIndex a m = match m with
      | .horizontal => nt / 0x800 * 0x400 + nt % 0x400
      | .vertical => nt / 0x400 % 2 * 0x400 + nt % 0x400
      | .singleLower => nt % 0x400
      | .singleUpper => 0x400 + nt % 0x400 := by
  cases m
  case horizontal => simp only [ntIndex, Nat.div_div_eq_div_mul]
  all_goals rfl

/-! ### The CPU address map -/

/-- Settles O40: the reads and writes by their range, the events by `event_read` and `event_write`. -/
theorem cpuAddressMap : Obligations.CpuAddressMap := by
  intro s a v hinv
  obtain ⟨_, _, hwin⟩ := hinv
  refine ⟨fun h => ⟨peek_ram h, fun b hb => peek_mirror h hb, memWrite_ram v s h⟩, peek_ppuReg, peek_io, peek_open,
    memWrite_none v s, fun h h' => ⟨peek_prgRam h h', memWrite_prgRam v s h h'⟩,
    fun h => ⟨?_, memWrite_mapper v s h, memWrite_cart a v s⟩, ?_, ?_, ?_⟩
  · obtain ⟨w, hw, hidx⟩ := prgIndex_eq s h
    exact ⟨w, s.prgIndex a, hw, hidx, hidx ▸ prgWin_index_lt hwin w _, peek_prg h⟩
  · rw [← bit_oracleAddr]
    rfl
  · rw [memWrite_events, event_write]
  · rw [memRead_events, event_read]

/-- Settles O41, from the frame of a bus write and `memWrite_peek`. -/
theorem writeThenRead : Obligations.WriteThenRead := by
  intro s a v hsizes hmem
  refine ⟨fun ha b hb => memWrite_peek hmem.writable v ha hb, memWrite_sameBytesBut hmem.writable a v,
    fun h h' b _ => ?_, memWrite_memoryOk hsizes hmem a v⟩
  rw [memWrite_none v s h h']
  exact peek_congr rfl rfl rfl rfl rfl b

/-! ### Picture-unit accesses, by range -/

/-- Addresses are reduced modulo 0x4000 (R86). -/
theorem ppuAddr_toNat (addr : Nat) : (BitVec.ofNat 14 addr).toNat = addr % 0x4000 := BitVec.toNat_ofNat ..

section
variable {addr : Nat} (v : Byte) (s : State)

theorem ppuRead_fst : (ppuRead addr s).1 = s.ppuPeek (BitVec.ofNat 14 addr) := rfl

theorem ppuPeek_chr (h : addr % 0x4000 < 0x2000) :
    s.ppuPeek (BitVec.ofNat 14 addr) = s.chr.get (s.chrIndex (BitVec.ofNat 14 addr)) := by
  simp only [State.ppuPeek, ppuAddr_toNat, if_pos h]

theorem ppuPeek_vram (h : 0x2000 ≤ addr % 0x4000) (h' : addr % 0x4000 < 0x3F00) :
    s.ppuPeek (BitVec.ofNat 14 addr) = s.vram.get (ntIndex (BitVec.ofNat 14 addr) s.mirroring) := by
  simp only [State.ppuPeek, ppuAddr_toNat, if_neg (Nat.not_lt.mpr h), if_pos h']

theorem ppuPeek_palette (h : 0x3F00 ≤ addr % 0x4000) :
    s.ppuPeek (BitVec.ofNat 14 addr) = Config.paletteRead s.draws (BitVec.ofNat 14 addr) := by
  simp only [State.ppuPeek, ppuAddr_toNat, if_neg (show ¬ addr % 0x4000 < 0x2000 by omega), if_neg (Nat.not_lt.mpr h)]

/-- Below 0x2000 a read draws nothing and has the CHR latches' side effect (R183). -/
theorem ppuRead_snd_chr (h : addr % 0x4000 < 0x2000) : (ppuRead addr s).2 =
    chrReadEffect (BitVec.ofNat 14 addr)
      { s with bus := .ppuRead (BitVec.ofNat 14 addr) (ppuRead addr s).1 :: s.bus } := by
  simp only [ppuRead, ppuAddr_toNat, if_pos h, bit, show ¬ 0x3F00 ≤ addr % 0x4000 by omega, decide_false,
    Bool.false_eq_true, if_false, Nat.add_zero]

/-- Elsewhere it changes the record and, in the palette, the number of draws (R91). -/
theorem ppuRead_snd_high (h : 0x2000 ≤ addr % 0x4000) : (ppuRead addr s).2 = { s with
    bus := .ppuRead (BitVec.ofNat 14 addr) (ppuRead addr s).1 :: s.bus
    draws := s.draws + if 0x3F00 ≤ addr % 0x4000 then 1 else 0 } := by
  simp only [ppuRead, ppuAddr_toNat, if_neg (Nat.not_lt.mpr h), bit, decide_eq_true_eq]

theorem ppuWrite_chrRam (h : addr % 0x4000 < 0x2000) (hu : s.cart.chrUnits = 0) : ppuWrite addr v s = { s with
    chrRam := s.chrRam.set (s.chrIndex (BitVec.ofNat 14 addr)) v
    bus := .ppuWrite (BitVec.ofNat 14 addr) v :: s.bus } := by
  simp only [ppuWrite, ppuAddr_toNat, if_pos h, if_pos hu]
  rfl

/-- CHR-ROM ignores writes (R126). -/
theorem ppuWrite_chrRom (h : addr % 0x4000 < 0x2000) (hu : s.cart.chrUnits ≠ 0) :
    ppuWrite addr v s = { s with bus := .ppuWrite (BitVec.ofNat 14 addr) v :: s.bus } := by
  simp only [ppuWrite, ppuAddr_toNat, if_pos h, if_neg hu]

theorem ppuWrite_vram (h : 0x2000 ≤ addr % 0x4000) (h' : addr % 0x4000 < 0x3F00) : ppuWrite addr v s = { s with
    vram := s.vram.set (ntIndex (BitVec.ofNat 14 addr) s.mirroring) v
    bus := .ppuWrite (BitVec.ofNat 14 addr) v :: s.bus } := by
  simp only [ppuWrite, ppuAddr_toNat, if_neg (Nat.not_lt.mpr h), if_pos h']

theorem ppuWrite_palette (h : 0x3F00 ≤ addr % 0x4000) :
    ppuWrite addr v s = { s with bus := .ppuWrite (BitVec.ofNat 14 addr) v :: s.bus } := by
  simp only [ppuWrite, ppuAddr_toNat, if_neg (show ¬ addr % 0x4000 < 0x2000 by omega), if_neg (Nat.not_lt.mpr h)]

/-- A write adds one event in the palette and none below it (R91). -/
theorem ppuWrite_events : (ppuWrite addr v s).events =
    s.events ++ if 0x3F00 ≤ addr % 0x4000 then [.paletteWrite (BitVec.ofNat 14 addr) v] else [] := by
  rw [events_of_bus (ppuWrite_bus addr v s), BusAccess.event?, ppuAddr_toNat]
  split <;> rfl

theorem ppuRead_events : (ppuRead addr s).2.events = s.events ++
    if 0x3F00 ≤ addr % 0x4000 then [.paletteRead (BitVec.ofNat 14 addr) (ppuRead addr s).1] else [] := by
  rw [events_of_bus (ppuRead_bus addr s), BusAccess.event?, ppuAddr_toNat]
  split <;> rfl

end

/-- Settles O42: each access by its range, the nametable index by `ntIndex_eq`. -/
theorem ppuSpace : Obligations.PpuSpace := by
  intro s addr v n a off nt index byte
  have ha : a = BitVec.ofNat 14 addr := BitVec.eq_of_toNat_eq (by simp [a, n])
  have hn : a.toNat = n := by rw [ha, ppuAddr_toNat]
  have hoff : s.chrIndex a = off := by simp only [State.chrIndex, hn, off]
  have hbyte : s.chr.get (s.chrIndex a) = byte := by
    rw [hoff]
    simp only [State.chr, byte]
    split <;> rfl
  have hindex : ntIndex a s.mirroring = index := by
    have h := ntIndex_eq a s.mirroring
    rw [hn] at h
    exact h
  clear_value a off index byte
  subst ha
  have hchr (h : n < 0x2000) : (ppuRead addr s).1 = byte := by rw [ppuRead_fst, ppuPeek_chr s h, hbyte]
  have hvram (h : 0x2000 ≤ n) (h' : n < 0x3F00) : (ppuRead addr s).1 = s.vram.get index := by
    rw [ppuRead_fst, ppuPeek_vram s h h', hindex]
  refine ⟨fun h => ⟨hchr h, fun h2 h4 => Prod.ext (hchr h) ?_, ?_⟩, fun h h' => ⟨Prod.ext (hvram h h') ?_, ?_⟩,
    fun h => ⟨Prod.ext (ppuPeek_palette s h) ?_, ppuWrite_palette v s h⟩, ppuWrite_events v s, ppuRead_events s⟩
  · rw [ppuRead_snd_chr s h, hchr h]
    exact chrReadEffect_of_noLatch _ h2 h4
  · split
    · rw [ppuWrite_chrRam v s h ‹_›, hoff]
    · exact ppuWrite_chrRom v s h ‹_›
  · rw [ppuRead_snd_high s h, hvram h h', if_neg (Nat.not_le.mpr h')]
    rfl
  · rw [ppuWrite_vram v s h h', hindex]
  · rw [ppuRead_snd_high s (by omega), if_pos h, ppuRead_fst, ppuPeek_palette s h]

/-! ### The contents of PRG-RAM as the environment sees them (R100) -/

/-- What `LoadRam` leaves at each index: the bytes that fit, and the old bytes beyond them. -/
theorem loadRam_get {s : State} (hm : s.MemoryOk) (bytes : List Byte) (k : Nat) :
    (loadRam bytes s).prgRam.get k =
      if k < bytes.length ∧ k < s.prgRamLen then bytes.getD k 0 else s.prgRam.get k := by
  obtain ⟨_, hwf⟩ := hm.writable
  have hget := Memory.get_setBytes hwf 0 (bytes.take s.prgRamLen) k
  rw [show (loadRam bytes s).prgRam = s.prgRam.setBytes 0 (bytes.take s.prgRamLen) from rfl, hget, List.length_take]
  by_cases h : k < bytes.length ∧ k < s.prgRamLen
  · rw [if_pos h, if_pos (by omega)]
    simp [h.2]
  · rw [if_neg h, if_neg (by omega)]

theorem loadRam_memoryOk {s : State} (hm : s.MemoryOk) (bytes : List Byte) : (loadRam bytes s).MemoryOk := by
  obtain ⟨hram, hvram, ⟨hwf, hbelow⟩, hrest⟩ := hm
  refine ⟨hram, hvram, ⟨Memory.wf_setBytes hwf 0 _, Memory.below_setBytes hbelow 0 _ ?_⟩, hrest⟩
  show 0 + (bytes.take s.prgRamLen).length ≤ s.prgRamLen
  rw [List.length_take]
  omega

/-- Settles O43, from the laws of `toBytes` and `setBytes`. -/
theorem saveAndLoadPrgRam : Obligations.SaveAndLoadPrgRam := fun _ bytes hm =>
  ⟨Memory.toBytes_length _ _, fun _ hk => Memory.toBytes_getD _ hk, rfl, loadRam_get hm bytes,
    loadRam_memoryOk hm bytes⟩

end Sys2Proof.Machine

/-!
PROOFS. The environment's actions (spec/20_memory.md R97, R100, R183; spec/21_memory_mappers.md R171;
spec/70_reset_and_hazards.md R541) keep the invariant of the block and the windows that follow the registers.
-/
namespace Sys2Proof.Machine

/-! ### What keeps both invariants -/

/-- The invariant of the block, and the windows those of the variant's registers. -/
def State.Sound (s : State) : Prop := s.Inv ∧ TablesFollow s

theorem State.sound_iff (s : State) : s.Sound ↔ s.Inv ∧ s.Coherent := and_congr_right' (coherent_iff s).symm

/-- What touches the cartridge's registers and tables only keeps the invariant where it leaves the windows in range. -/
theorem CartridgeOnly.inv {s t : State} (h : CartridgeOnly s t) (hs : s.SizesOk) (hm : s.MemoryOk)
    (hw : t.WindowsOk) : t.Inv := by
  refine ⟨?_, ?_, hw⟩ <;> rw [h] <;> assumption

theorem memWrite_inv {s : State} (h : s.Inv) (a : Word) (v : Byte) : (memWrite a v s).Inv := by
  obtain ⟨hsizes, hmem, hwin⟩ := h
  refine ⟨?_, memWrite_memoryOk hsizes hmem a v, memWrite_windowsOk a v s hwin⟩
  rw [State.SizesOk, memWrite_cart]
  exact hsizes

/-- The moves that a step is made of keep both. -/
theorem Moves.sound {s t : State} (m : Moves s t) (h : s.Sound) : t.Sound := by
  refine m.keeps (P := State.Sound) (fun u t e hu => ?_) (fun a v u hu => hu) (fun a v u hu => ?_)
    (fun k u hu => ?_) h
  · rw [e]
    exact hu
  · exact ⟨memWrite_inv hu.1 a v, (memWrite_tables a v u hu.2).1⟩
  · cases k <;> exact hu

theorem step_sound {s t : State} (h : s.Sound) (hstep : step s = .next t) : t.Sound := (step_moves hstep).sound h

/-! ### The actions one by one -/

theorem countDown_sound {s : State} (h : s.Sound) : (countDown s).Sound := h

theorem tick_sound {s : State} (h : s.Sound) : (tick s).Sound := by
  unfold tick
  split
  · split
    · next t hstep => exact countDown_sound (step_sound h hstep)
    · exact h
    · exact h
  · exact countDown_sound h

theorem mmc3Tick_sound {s : State} {r : Mmc3} (hm : s.mapper = .mmc3 r) (h : s.Sound) : (mmc3Tick r s).Sound := by
  obtain ⟨hinv, htab⟩ := h
  unfold mmc3Tick
  split
  · exact ⟨hinv, mmc3Registers_tables s r _ s.irqPending hm htab rfl rfl⟩
  · exact ⟨hinv, mmc3Registers_tables s r _ _ hm htab rfl rfl⟩

theorem scanlineTick_sound {s : State} (h : s.Sound) : (scanlineTick s).Sound := by
  unfold scanlineTick
  split
  · next r hm => exact mmc3Tick_sound hm h
  · exact h

theorem chrReadEffect_sound (a : PpuAddr) {s : State} (h : s.Sound) : (chrReadEffect a s).Sound := by
  obtain ⟨⟨hsizes, hmem, hwin⟩, htab⟩ := h
  exact ⟨(chrReadEffect_only a s).inv hsizes hmem (chrReadEffect_windowsOk a s hwin), chrReadEffect_tables a s htab⟩

theorem ppuRead_sound (addr : Nat) {s : State} (h : s.Sound) : (ppuRead addr s).2.Sound := by
  by_cases hr : addr % 0x4000 < 0x2000
  · rw [ppuRead_snd_chr s hr]
    exact chrReadEffect_sound _ h
  · rw [ppuRead_snd_high s (Nat.not_lt.mp hr)]
    exact h

theorem Memory.Fits.set {m : Memory} {n k : Nat} (h : m.Fits n) (hk : k < n) (v : Byte) : (m.set k v).Fits n :=
  ⟨Memory.wf_set h.1 k v, Memory.below_set h.2 hk v⟩

/-- A store lands inside CHR-RAM or VRAM; the other writes change the record only. -/
theorem ppuWrite_sound (addr : Nat) (v : Byte) {s : State} (h : s.Sound) : (ppuWrite addr v s).Sound := by
  have ⟨⟨hsizes, hmem, hwin⟩, htab⟩ := h
  have ⟨hram, hvram, hprg, hchr, hrom⟩ := hmem
  by_cases hlow : addr % 0x4000 < 0x2000
  · by_cases hu : s.cart.chrUnits = 0
    · have hlt : s.chrIndex (BitVec.ofNat 14 addr) < 8192 := by
        have hlt := chrIndex_lt hwin (BitVec.ofNat 14 addr)
        rwa [State.chrLen, if_pos hu] at hlt
      rw [ppuWrite_chrRam v s hlow hu]
      exact ⟨⟨hsizes, ⟨hram, hvram, hprg, hchr.set hlt v, hrom⟩, hwin⟩, htab⟩
    · rw [ppuWrite_chrRom v s hlow hu]
      exact h
  · by_cases hmid : addr % 0x4000 < 0x3F00
    · rw [ppuWrite_vram v s (Nat.not_lt.mp hlow) hmid]
      exact ⟨⟨hsizes, ⟨hram, hvram.set (ntIndex_lt _ _) v, hprg, hchr, hrom⟩, hwin⟩, htab⟩
    · rw [ppuWrite_palette v s (Nat.not_lt.mp hmid)]
      exact h

theorem loadRam_sound (bytes : List Byte) {s : State} (h : s.Sound) : (loadRam bytes s).Sound := by
  obtain ⟨⟨hsizes, hmem, hwin⟩, htab⟩ := h
  exact ⟨⟨hsizes, loadRam_memoryOk hmem bytes, hwin⟩, htab⟩

/-- Every action on a running session keeps both. -/
theorem HostAction.act_sound (h : HostAction) {s : State} (hs : s.Sound) : (h.act s).Sound := by
  cases h with
  | cpuTick => exact tick_sound hs
  | triggerNmi => exact hs
  | scanlineTick => exact scanlineTick_sound hs
  | ppuRead addr => exact ppuRead_sound addr hs
  | ppuWrite addr v => exact ppuWrite_sound addr v hs
  | loadRam bytes => exact loadRam_sound bytes hs
  | cancel => exact hs

/-- A stopped session is left alone, or only cancelled (R97, R487). -/
theorem HostAction.perform_sound (h : HostAction) {s : State} (hs : s.Sound) : (h.perform s).Sound := by
  unfold HostAction.perform
  split
  · exact hs
  · split
    · exact h.act_sound hs
    · split <;> exact hs

/-- Settles O52, action by action. -/
theorem hostActionsKeepTheInvariant : Obligations.HostActionsKeepTheInvariant := fun s h hinv hcoh =>
  (State.sound_iff _).mp (h.perform_sound ((State.sound_iff s).mpr ⟨hinv, hcoh⟩))

end Sys2Proof.Machine

/-!
PROOFS. Loading a cartridge (spec/20_memory.md R97 to R99; spec/70_reset_and_hazards.md R520 to R522): the check that
refuses an image, and the state that a loaded one starts in.
-/
namespace Sys2Proof.Machine

/-! ### The checks of R99 in their order -/

section
variable {image : List Byte}

theorem parseCartridge_short (h : image.length < 16) : parseCartridge image = .error .truncated := if_pos h

theorem parseCartridge_badMagic (hl : ¬ image.length < 16) (hg : image.take 4 ≠ cartridgeMagic) :
    parseCartridge image = .error .badMagic := by
  rw [parseCartridge, if_neg hl, if_pos (bne_iff_ne.mpr hg)]

variable (hl : ¬ image.length < 16) (hg : image.take 4 = cartridgeMagic)
include hl hg

theorem parseCartridge_unknownMapper (hm : mapperOfNumber (headerMapper image).toNat = none) :
    parseCartridge image = .error (.unknownMapper (headerMapper image).toNat) := by
  rw [parseCartridge, if_neg hl, if_neg (by simp [hg]), hm]

variable {m : Mapper} (hm : mapperOfNumber (headerMapper image).toNat = some m)
include hm

/-- The last two checks, of an image whose header is known. -/
theorem parseCartridge_known : parseCartridge image =
    if image.getD 4 0 = 0 then .error .noPrgRom
    else if image.length < headerPrgStart image + headerPrgLen image + headerChrLen image then .error .truncated
    else .ok (parseFields image, m) := by
  rw [parseCartridge, if_neg hl, if_neg (by simp [hg]), hm]

end

theorem loadCartridge_error {image : List Byte} {r : MalformedReason} (h : parseCartridge image = .error r)
    (init : Init) :
    loadCartridge image init = .error (.malformedCartridge r) := by
  rw [loadCartridge, h]

theorem loadCartridge_ok {image : List Byte} {p : Cartridge × Mapper} (h : parseCartridge image = .ok p)
    (init : Init) :
    loadCartridge image init = .ok (powerOn p.1 p.2 init) := by
  rw [loadCartridge, h]

/-- Settles O57: one check after another. -/
theorem cartridgeHeaderFaults : Obligations.CartridgeHeaderFaults := by
  intro image init b number size outcome
  have hnumber : (headerMapper image).toNat = number := headerMapper_toNat image
  have hsize : headerPrgStart image + headerPrgLen image + headerChrLen image = size := by
    rw [headerPrgStart_eq]
    rfl
  have hunits : image.getD 4 0 = 0 ↔ b 4 = 0 := BitVec.toNat_inj.symm
  by_cases hl : image.length < 16
  · rw [if_pos hl]
    exact loadCartridge_error (parseCartridge_short hl) init
  rw [if_neg hl]
  have hmagic := magic_iff image hl
  by_cases hg : b 0 = 0x4E ∧ b 1 = 0x45 ∧ b 2 = 0x53 ∧ b 3 = 0x1A
  swap
  · rw [if_pos hg]
    exact loadCartridge_error (parseCartridge_badMagic hl (mt hmagic.mp hg)) init
  rw [if_neg (not_not.mpr hg)]
  by_cases hk : number ∈ [0, 1, 2, 3, 4, 7, 9, 10, 11, 66, 71, 94, 180, 206]
  swap
  · rw [if_pos hk, ← hnumber]
    have hm := mapperOfNumber_none number hk
    exact loadCartridge_error (parseCartridge_unknownMapper hl (hmagic.mpr hg) (hnumber ▸ hm)) init
  rw [if_neg (not_not.mpr hk)]
  obtain ⟨m, hm⟩ := mapperOfNumber_some number hk
  have hp := parseCartridge_known hl (hmagic.mpr hg) (hnumber ▸ hm)
  rw [hsize] at hp
  by_cases h0 : b 4 = 0
  · rw [if_pos (hunits.mpr h0)] at hp
    rw [if_pos h0]
    exact loadCartridge_error hp init
  rw [if_neg (mt hunits.mp h0)] at hp
  rw [if_neg h0]
  by_cases hs : image.length < size
  · rw [if_pos hs] at hp ⊢
    exact loadCartridge_error hp init
  · rw [if_neg hs] at hp ⊢
    exact ⟨_, loadCartridge_ok hp init⟩

/-! ### The image that loads -/

/-- An image that parses has a known mapper number, at least one PRG unit, and the fields of its header. -/
theorem parseCartridge_ok {image : List Byte} {c : Cartridge} {m : Mapper} (h : parseCartridge image = .ok (c, m)) :
    c = parseFields image ∧ mapperOfNumber (headerMapper image).toNat = some m ∧ 1 ≤ (image.getD 4 0).toNat := by
  by_cases hl : image.length < 16
  · rw [parseCartridge_short hl] at h
    cases h
  by_cases hg : image.take 4 = cartridgeMagic
  swap
  · rw [parseCartridge_badMagic hl hg] at h
    cases h
  cases hm : mapperOfNumber (headerMapper image).toNat with
  | none =>
    rw [parseCartridge_unknownMapper hl hg hm] at h
    cases h
  | some m' =>
    rw [parseCartridge_known hl hg hm] at h
    split_ifs at h with h0
    cases h
    exact ⟨rfl, rfl, Nat.pos_of_ne_zero fun e => h0 (BitVec.eq_of_toNat_eq e)⟩

theorem loadCartridge_eq_ok {image : List Byte} {init : Init} {s : State} (h : loadCartridge image init = .ok s) :
    ∃ m, s = powerOn (parseFields image) m init ∧ mapperOfNumber (headerMapper image).toNat = some m ∧
      1 ≤ (image.getD 4 0).toNat := by
  cases hp : parseCartridge image with
  | error r =>
    rw [loadCartridge_error hp] at h
    cases h
  | ok p =>
    rw [loadCartridge_ok hp] at h
    cases h
    obtain ⟨hc, hm, hu⟩ := parseCartridge_ok hp
    exact ⟨p.2, by rw [hc], hm, hu⟩

/-! ### The cartridge of a header (R98) -/

/-- Bit `i` of a byte as a number. -/
theorem Byte.getLsbD_eq (v : Byte) (i : Nat) : v.getLsbD i = decide (v.toNat / 2 ^ i % 2 = 1) :=
  Nat.testBit_eq_decide_div_mod_eq

theorem parseFields_mirroringBit (image : List Byte) :
    (parseFields image).mirroringBit = decide ((image.getD 6 0).toNat % 2 = 1) := by
  rw [parseFields, Byte.getLsbD_eq, pow_zero, Nat.div_one]

theorem parseFields_battery (image : List Byte) :
    (parseFields image).battery = decide ((image.getD 6 0).toNat / 2 % 2 = 1) := Byte.getLsbD_eq _ 1

/-- An array made of the first `len` bytes of a list. -/
theorem Memory.get_ofBytes_take (vs : List Byte) {k len : Nat} (h : k < len) :
    (Memory.ofBytes (vs.take len)).get k = vs.getD k 0 := by
  rw [Memory.get_ofBytes]
  simp [h]

theorem Memory.fits_ofBytes_take (vs : List Byte) (len : Nat) : (Memory.ofBytes (vs.take len)).Fits len :=
  Memory.fits_ofBytes _ _ (List.length_take_le ..)

theorem parseFields_prg (image : List Byte) {k : Nat} (h : k < headerPrgLen image) :
    (parseFields image).prg.get k = image.getD (headerPrgStart image + k) 0 := by
  rw [parseFields, Memory.get_ofBytes_take _ h]
  simp

theorem parseFields_chr (image : List Byte) {k : Nat} (h : k < headerChrLen image) :
    (parseFields image).chr.get k = image.getD (headerPrgStart image + headerPrgLen image + k) 0 := by
  rw [parseFields, Memory.get_ofBytes_take _ h]
  simp

/-! ### The power-on state -/

theorem constructed_chrRam {c : Cartridge} (h : c.chrUnits = 0) (m : Mapper) (init : Init) :
    (constructed c m init).chrRam = Memory.ofBytes (init.chrRam.take 8192) := if_pos h

/-- The arrays of a new session fit, whatever the lengths of the image and of the INIT lists. -/
theorem constructed_memoryOk (image : List Byte) (m : Mapper) (init : Init) :
    (constructed (parseFields image) m init).MemoryOk := by
  refine ⟨Memory.fits_ofBytes_take .., Memory.fits_ofBytes_take .., Memory.fits_ofBytes_take .., ?_,
    Memory.fits_ofBytes_take .., Memory.fits_ofBytes_take ..⟩
  simp only [constructed]
  split
  · exact Memory.fits_ofBytes_take ..
  · exact ⟨rfl, rfl⟩

/-- What power-on leaves of the construction: all but the tables, the mirroring, and what the reading of the reset
vector does (R520). -/
theorem powerOn_only (c : Cartridge) (m : Mapper) (init : Init) : powerOn c m init = { constructed c m init with
    prgWin := (powerOn c m init).prgWin
    chrWin := (powerOn c m init).chrWin
    mirroring := m.mirroringOver (if c.mirroringBit then .vertical else .horizontal)
    pc := ((powerOn c m init).peek 0xFFFD).pair ((powerOn c m init).peek 0xFFFC)
    bus := [.read 0xFFFD ((powerOn c m init).peek 0xFFFD), .read 0xFFFC ((powerOn c m init).peek 0xFFFC)] } := by
  have hpeek (a : Word) : (powerOn c m init).peek a = (mapperPowerOn m (constructed c m init)).peek a := by
    rw [powerOn_eq]
    exact peek_congr rfl rfl rfl rfl rfl a
  have e := mapperPowerOn_eq m (constructed c m init)
  rw [hpeek, hpeek, powerOn_eq]
  generalize mapperPowerOn m (constructed c m init) = t at e
  rw [e]
  rfl

/-- A loaded session starts in range, its windows those of its variant's registers. -/
theorem powerOn_sound (image : List Byte) (m : Mapper) (init : Init) (hu : 1 ≤ (image.getD 4 0).toNat) :
    (powerOn (parseFields image) m init).Sound := by
  have hsizes : (constructed (parseFields image) m init).SizesOk := ⟨hu, Nat.le_max_left ..⟩
  have hmem := constructed_memoryOk image m init
  have hwin := mapperPowerOn_windowsOk m (constructed (parseFields image) m init) hu
  rw [powerOn_eq]
  exact ⟨(mapperPowerOn_only m _).inv hsizes hmem hwin,
    mapperPowerOn_tables m (constructed (parseFields image) m init)⟩

/-- A variant with its registers at power-on (R131, R143, R174, R175, R188). -/
def Mapper.atPowerOn : Mapper → Mapper
  | .nrom => .nrom
  | .mmc1 _ => .mmc1 (mmc1PowerOn Config.mmc1PowerOnMirroring)
  | .uxrom _ => .uxrom 0
  | .cnrom _ => .cnrom 0
  | .mmc3 _ => .mmc3 mmc3PowerOn
  | .axrom _ => .axrom 0
  | .mmc2 _ => .mmc2 latchPowerOn
  | .mmc4 _ => .mmc4 latchPowerOn
  | .colorDreams _ => .colorDreams 0
  | .gxrom _ => .gxrom 0
  | .camerica _ => .camerica 0
  | .un1rom _ => .un1rom 0
  | .unromFixFirst _ => .unromFixFirst 0
  | .namco108 _ => .namco108 namco108PowerOn

theorem mapperOfNumber_atPowerOn {n : Nat} {m : Mapper} (h : mapperOfNumber n = some m) : m = m.atPowerOn := by
  unfold mapperOfNumber at h
  split at h <;> cases h <;> rfl

/-- MMC1's control register at power-on (R143). -/
theorem mmc1PowerOn_control (b : BitVec 2) : (mmc1PowerOn b).control.toNat = 12 + b.toNat := by
  revert b
  decide

/-- The mirroring that it names (R146). -/
theorem mmc1PowerOn_mirroring (b : BitVec 2) : mmc1Mirroring (mmc1PowerOn b).control = match b.toNat with
    | 0 => .singleLower
    | 1 => .singleUpper
    | 2 => .vertical
    | _ => .horizontal := by
  revert b
  decide

/-- Settles O58: the fields by `powerOn_only`, the registers and the mirroring by the variant. -/
theorem powerOnState : Obligations.PowerOnState := by
  intro image init s hload b start
  obtain ⟨m, rfl, hm, hu⟩ := loadCartridge_eq_ok hload
  have hstart : headerPrgStart image = start := headerPrgStart_eq image
  have hsound := (State.sound_iff _).mp (powerOn_sound image m init hu)
  have e := powerOn_only (parseFields image) m init
  generalize powerOn (parseFields image) m init = s at *
  have hcart : s.cart = parseFields image := congrArg State.cart e
  have hmapper : s.mapper = m := congrArg State.mapper e
  have hflags : s.flags = ⟨false, false, true, false, false, false, false⟩ := congrArg State.flags e
  have hnumber : m.number = headerMapper image := BitVec.eq_of_toNat_eq (mapperOfNumber_number _ _ hm)
  rw [hcart, hmapper, hflags]
  refine ⟨rfl, rfl, rfl, headerMapper_toNat image, hnumber, parseFields_mirroringBit image,
    parseFields_battery image,
    fun k hk => ?_, fun k hk => ?_, fun k hk => ⟨?_, ?_⟩, fun k hk => ?_, fun h5 k hk => ?_,
    congrArg State.a e, congrArg State.x e, congrArg State.y e, congrArg State.sp e, by decide, rfl,
    congrArg State.scratch e, ⟨congrArg State.status e, congrArg State.cancelled e⟩, congrArg State.nmiPending e,
    congrArg State.irqPending e, congrArg State.owed e, congrArg State.draws e, congrArg State.pc e,
    congrArg State.bus e, hm, ?_, ?_, hsound⟩
  · rw [parseFields_prg image hk, hstart]
  · rw [parseFields_chr image hk, hstart]
    rfl
  · rw [congrArg State.ram e]
    exact Memory.get_ofBytes_take _ hk
  · rw [congrArg State.vram e]
    exact Memory.get_ofBytes_take _ hk
  · rw [congrArg State.prgRam e]
    exact Memory.get_ofBytes_take _ hk
  · rw [(congrArg State.chrRam e).trans (constructed_chrRam h5 m init)]
    exact Memory.get_ofBytes_take _ hk
  · rw [mapperOfNumber_atPowerOn hm]
    cases m
    case nrom => trivial
    case mmc1 => exact ⟨rfl, rfl, rfl, rfl, rfl, rfl, mmc1PowerOn_control _⟩
    case mmc3 => exact ⟨rfl, fun k => Vector.getElem_replicate .., rfl, rfl, rfl⟩
    case namco108 => exact ⟨rfl, fun k => Vector.getElem_replicate ..⟩
    case mmc2 | mmc4 => exact ⟨rfl, rfl, rfl, rfl, rfl, rfl, rfl⟩
    all_goals rfl
  · rw [congrArg State.mirroring e, mapperOfNumber_atPowerOn hm]
    cases m
    case mmc1 => exact mmc1PowerOn_mirroring _
    all_goals rfl

end Sys2Proof.Machine

/-!
PROOFS. What every step keeps (spec/21_memory_mappers.md R120, R123, R124, R189; spec/60_exceptions.md R484, R495): a
step is a chain of moves (`step_moves`), so an invariant is checked once for each of the four moves.
-/
namespace Sys2Proof.Machine

/-! ### The invariant of the block -/

theorem Moves.inv {s t : State} (m : Moves s t) (h : s.Inv) : t.Inv := by
  refine m.keeps (P := State.Inv) (fun u t e hu => ?cpu) (fun _ _ _ hu => hu)
    (fun a v _ hu => memWrite_inv hu a v) (fun k u hu => ?clear) h
  case cpu =>
    rw [e]
    exact hu
  case clear => cases k <;> exact hu

/-- Settles O51: each move of a step keeps the invariant. -/
theorem stepsKeepTheInvariant : Obligations.StepsKeepTheInvariant := fun _ _ h hstep => (step_moves hstep).inv h

/-! ### Windows that follow the registers of one variant -/

/-- The tables are those of the registers of a variant with number `n`. -/
def FollowsVariant (n : Byte) (s : State) : Prop := TablesFollow s ∧ s.mapper.number = n

theorem memWrite_followsVariant {n : Byte} {s : State} (h : FollowsVariant n s) (a : Word) (v : Byte) :
    FollowsVariant n (memWrite a v s) := by
  obtain ⟨htab, hnum⟩ := h
  obtain ⟨htab', hnum'⟩ := memWrite_tables a v s htab
  exact ⟨htab', hnum'.trans hnum⟩

theorem Moves.followsVariant {n : Byte} {s t : State} (m : Moves s t) (h : FollowsVariant n s) :
    FollowsVariant n t := by
  refine m.keeps (P := FollowsVariant n) (fun u t e hu => ?cpu) (fun _ _ _ hu => hu)
    (fun a v _ hu => memWrite_followsVariant hu a v) (fun k u hu => ?clear) h
  case cpu =>
    rw [e]
    exact hu
  case clear => cases k <;> exact hu

/-- Settles O54: coherence field by field (`coherent_iff`), which each move of a step keeps. -/
theorem stepsKeepTheWindowsCoherent : Obligations.StepsKeepTheWindowsCoherent := by
  intro s t hcoh hstep
  obtain ⟨htab, hnum⟩ := (step_moves hstep).followsVariant ⟨(coherent_iff s).mp hcoh, rfl⟩
  exact ⟨(coherent_iff t).mpr htab, hnum⟩

/-! ### The interrupt latches and the bus record -/

/-- No move sets an interrupt latch (R189). -/
theorem Moves.latches {s t : State} (m : Moves s t) :
    (t.nmiPending = true → s.nmiPending = true) ∧ (t.irqPending = true → s.irqPending = true) := by
  induction m with
  | refl => exact ⟨id, id⟩
  | cpu t e _ ih =>
    rw [e]
    exact ih
  | read _ _ _ ih => exact ih
  | write a v _ ih =>
    obtain ⟨hnmi, hirq⟩ := ih
    exact ⟨fun h => hnmi (memWrite_nmiPending a v _ ▸ h), fun h => hirq (memWrite_irqPending a v _ h)⟩
  | clear k _ ih =>
    obtain ⟨hnmi, hirq⟩ := ih
    cases k
    · exact ⟨nofun, hirq⟩
    · exact ⟨hnmi, nofun⟩

/-- The bus record grows at its end, and the draws are the oracle reads among the new accesses (R87, R83). -/
theorem Moves.record {s t : State} (m : Moves s t) :
    ∃ new : List BusAccess, t.bus = new ++ s.bus ∧ t.draws = s.draws + new.countP BusAccess.isDraw := by
  induction m with
  | refl => exact ⟨[], rfl, rfl⟩
  | cpu t e _ ih =>
    rw [e]
    exact ih
  | read a v _ ih =>
    obtain ⟨new, hbus, hdraws⟩ := ih
    refine ⟨.read a v :: new, by simp [hbus], ?_⟩
    rw [recordRead_draws, hdraws, List.countP_cons, Nat.add_assoc]
    rfl
  | write a v _ ih =>
    obtain ⟨new, hbus, hdraws⟩ := ih
    exact ⟨.write a v :: new, by simp [hbus], by simp [hdraws, BusAccess.isDraw]⟩
  | clear k _ ih => cases k <;> exact ih

/-- Settles O55, from the frame, the latches and the record of a chain of moves. -/
theorem stepsNeverTouch : Obligations.StepsNeverTouch := by
  intro s t hstep
  have m := step_moves hstep
  obtain ⟨hcart, hvram, hchr, hcancel⟩ := m.frame
  obtain ⟨hnmi, hirq⟩ := m.latches
  exact ⟨hcart, hvram, hchr, hcancel, hnmi, hirq, m.record⟩

end Sys2Proof.Machine

/-!
PROOFS. The mappers' registers (spec/21_memory_mappers.md): what a CPU write to each does, and the offsets that the
recomputations give, as numbers.
-/
namespace Sys2Proof.Machine

/-! ### A register write and the bits it looks at -/

/-- A write at 0x8000 or above is the register write of the cartridge's variant (R124). -/
theorem memWrite_of_mapper {s : State} {m : Mapper} (hm : s.mapper = m) {a : Word} (ha : 0x8000 ≤ a.toNat)
    (v : Byte) : memWrite a v s = mapperWrite a v { s with mapper := m, bus := .write a v :: s.bus } := by
  subst hm
  exact memWrite_mapper v s ha

theorem bankNo_and03 (v : Byte) : bankNo (v &&& 0x03) = ((v.toNat % 4 : Nat) : Int) :=
  congrArg Nat.cast (Nat.and_two_pow_sub_one_eq_mod v.toNat 2)

theorem bankNo_and07 (v : Byte) : bankNo (v &&& 0x07) = ((v.toNat % 8 : Nat) : Int) :=
  congrArg Nat.cast (Nat.and_two_pow_sub_one_eq_mod v.toNat 3)

theorem bankNo_and0F (v : Byte) : bankNo (v &&& 0x0F) = ((v.toNat % 16 : Nat) : Int) :=
  congrArg Nat.cast (Nat.and_two_pow_sub_one_eq_mod v.toNat 4)

theorem toNat_shiftRight {n : Nat} (v : BitVec n) (k : Nat) : (v >>> k).toNat = v.toNat / 2 ^ k := by
  rw [BitVec.toNat_ushiftRight, Nat.shiftRight_eq_div_pow]

theorem bankNo_shiftRight {n : Nat} (v : BitVec n) (k : Nat) : bankNo (v >>> k) = ((v.toNat / 2 ^ k : Nat) : Int) :=
  congrArg Nat.cast (toNat_shiftRight v k)

theorem Word.getLsbD_eq (a : Word) (i : Nat) : a.getLsbD i = decide (a.toNat / 2 ^ i % 2 = 1) :=
  Nat.testBit_eq_decide_div_mod_eq

/-! ### The single-register variants (R130 to R139) -/

/-- The offset of 8KB part `part` of bank `b` of `unit` bytes, in an array of `len` bytes (R123). -/
def prgPart (len b part unit : Nat) : Nat := (b * unit + part * 0x2000) % len

/-- The offsets of the eight 1KB parts of an 8KB CHR bank (R123). -/
def chrBank (len b : Nat) : Vector Nat 8 := Vector.ofFn fun j => (b * 0x2000 + j.val * 0x400) % len

theorem prg16Low_parts (b : Nat) (s : State) : prg16Low b s = { s with prgWin :=
    #v[prgPart s.prgLen b 0 0x4000, prgPart s.prgLen b 1 0x4000, s.prgWin[2], s.prgWin[3]] } := by
  simp [prg16Low_eq, prgPart]

theorem prg16High_parts (b : Nat) (s : State) : prg16High b s = { s with prgWin :=
    #v[s.prgWin[0], s.prgWin[1], prgPart s.prgLen b 0 0x4000, prgPart s.prgLen b 1 0x4000] } := by
  simp [prg16High_eq, prgPart]

theorem prg32_parts (b : Nat) (s : State) : prg32 b s = { s with prgWin :=
    #v[prgPart s.prgLen b 0 0x8000, prgPart s.prgLen b 1 0x8000, prgPart s.prgLen b 2 0x8000,
      prgPart s.prgLen b 3 0x8000] } := by
  simp [prg32_eq, prgPart]

/-- Both 16KB halves of PRG. -/
theorem prg16_both_parts (b c : Nat) (s : State) : prg16High c (prg16Low b s) = { s with prgWin :=
    #v[prgPart s.prgLen b 0 0x4000, prgPart s.prgLen b 1 0x4000, prgPart s.prgLen c 0 0x4000,
      prgPart s.prgLen c 1 0x4000] } := by
  rw [prg16Low_parts, prg16High_parts]
  rfl

/-- 32KB of PRG and 8KB of CHR. -/
theorem chr8_prg32 (b c : Nat) (s : State) : chr8 c (prg32 b s) = { s with
    prgWin := #v[prgPart s.prgLen b 0 0x8000, prgPart s.prgLen b 1 0x8000, prgPart s.prgLen b 2 0x8000,
      prgPart s.prgLen b 3 0x8000]
    chrWin := chrBank s.chrLen c } := by
  rw [prg32_parts, chr8_eq]
  rfl

/-- Both halves of PRG, and the first 8KB of CHR. -/
theorem chr8_prg16_both (b c : Nat) (s : State) : chr8 (0 : Nat) (prg16High c (prg16Low b s)) = { s with
    prgWin := #v[prgPart s.prgLen b 0 0x4000, prgPart s.prgLen b 1 0x4000, prgPart s.prgLen c 0 0x4000,
      prgPart s.prgLen c 1 0x4000]
    chrWin := chrBank s.chrLen 0 } := by
  rw [prg16_both_parts, chr8_eq]
  rfl

/-- Settles O44: variant by variant, the bank switch as a table of numbers. -/
theorem singleRegisterMappers : Obligations.SingleRegisterMappers := by
  intro s a v hu ha p chrLen chr n low16 high16 prg32' last s' on
  have hlast : s.last16 = (last : Int) := last16_eq hu
  refine ⟨fun hm => ?nrom, fun r hm => ?uxrom, fun r hm => ?cnrom, fun r hm => ?axrom, fun r hm => ?colorDreams,
    fun r hm => ?gxrom, fun r hm => ?camerica, fun r hm => ?un1rom, fun r hm => ?unromFixFirst,
    fun m hm => ?fixed32, ?axromOn, fun m hm => ?fixedLast, ?fixedFirst⟩
  case nrom =>
    rw [memWrite_of_mapper hm ha]
    simp only [mapperWrite, s', hm]
  case uxrom =>
    rw [memWrite_of_mapper hm ha]
    exact prg16Low_parts n _
  case cnrom =>
    rw [memWrite_of_mapper hm ha]
    exact chr8_eq n _
  case axrom =>
    rw [memWrite_of_mapper hm ha]
    simp only [mapperWrite, bankNo_and07, prg32_parts, Byte.getLsbD_eq, decide_eq_true_eq]
    rfl
  case colorDreams =>
    rw [memWrite_of_mapper hm ha]
    simp only [mapperWrite, bankNo_and03, bankNo_shiftRight]
    exact chr8_prg32 (n % 4) (n / 16) _
  case gxrom =>
    rw [memWrite_of_mapper hm ha]
    simp only [mapperWrite, bankNo_and03, toNat_shiftRight]
    exact chr8_prg32 (n / 16 % 4) (n % 4) _
  case camerica =>
    have hbit : (a.getLsbD 14 = true) = (0xC000 ≤ a.toNat) := by
      rw [Word.getLsbD_eq, decide_eq_true_eq, eq_iff_iff]
      omega
    rw [memWrite_of_mapper hm ha]
    simp only [mapperWrite, bankNo_and0F, prg16Low_parts, hbit]
    split
    · rfl
    · simp only [s', hm]
  case un1rom =>
    rw [memWrite_of_mapper hm ha]
    simp only [mapperWrite, bankNo_and07, toNat_shiftRight]
    exact prg16Low_parts (n / 4 % 8) _
  case unromFixFirst =>
    rw [memWrite_of_mapper hm ha]
    simp only [mapperWrite, bankNo_and07]
    exact prg16High_parts (n % 8) _
  case fixed32 =>
    simp only [List.mem_cons, List.not_mem_nil, or_false] at hm
    rcases hm with rfl | rfl | rfl | rfl <;> exact chr8_prg32 0 0 _
  case axromOn => exact chr8_prg32 0 0 _
  case fixedLast =>
    have hboth := chr8_prg16_both 0 last { s with mapper := m }
    rw [← hlast] at hboth
    simp only [List.mem_cons, List.not_mem_nil, or_false] at hm
    rcases hm with rfl | rfl | rfl <;> exact hboth
  case fixedFirst => exact chr8_prg16_both 0 0 _

end Sys2Proof.Machine

/-!
PROOFS. MMC1 (spec/21_memory_mappers.md R140 to R153): the serial port, and the offsets of its four registers.
-/
namespace Sys2Proof.Machine

/-! ### What a register address selects -/

/-- Bits 14:13 of an address in 0x8000-0xFFFF name its 8KB range. -/
theorem registerRange {a : Word} (ha : 0x8000 ≤ a.toNat) :
    (a.toNat < 0xA000 ∧ a.getLsbD 14 = false ∧ a.getLsbD 13 = false) ∨
    (¬ a.toNat < 0xA000 ∧ a.toNat < 0xC000 ∧ a.getLsbD 14 = false ∧ a.getLsbD 13 = true) ∨
    (¬ a.toNat < 0xA000 ∧ ¬ a.toNat < 0xC000 ∧ a.toNat < 0xE000 ∧
      a.getLsbD 14 = true ∧ a.getLsbD 13 = false) ∨
    (¬ a.toNat < 0xA000 ∧ ¬ a.toNat < 0xC000 ∧ ¬ a.toNat < 0xE000 ∧
      a.getLsbD 14 = true ∧ a.getLsbD 13 = true) := by
  simp only [Word.getLsbD_eq, decide_eq_true_eq, decide_eq_false_iff_not]
  omega

/-! ### The serial port (R141, R142, R144, R145) -/

/-- The data bit of a port write, at the place of the next bit of the shift register (R141). -/
theorem mmc1_dataBit (v : Byte) (k : Fin 5) :
    (v.setWidth 5 &&& (1 : BitVec 5)) <<< k.val = if v.toNat % 2 = 1 then BitVec.ofNat 5 (2 ^ k.val) else 0 := by
  have hbit : v.setWidth 5 &&& (1 : BitVec 5) = if v.toNat % 2 = 1 then 1 else 0 := by
    revert v
    decide
  rw [hbit]
  split
  · revert k
    decide
  · exact BitVec.zero_shiftLeft _

section
variable {r : Mmc1} {a : Word} {v : Byte} {s : State}

theorem mmc1Write_repeated (h : r.lastWritePC = some s.pc) : mmc1Write r a v s = s := if_pos h

theorem mmc1Write_reset (h : r.lastWritePC ≠ some s.pc) (hv : 128 ≤ v.toNat) :
    mmc1Write r a v s = mmc1Install (mmc1Reset { r with lastWritePC := some s.pc }) s := by
  have h7 : v.getLsbD 7 = true := by rw [Byte.bit7, decide_eq_true hv]
  rw [mmc1Write, if_neg h]
  exact if_pos h7

/-- A data write puts its bit in the shift register; the fifth goes to the register its address selects. -/
theorem mmc1Write_data (h : r.lastWritePC ≠ some s.pc) (hv : v.toNat < 128) : mmc1Write r a v s =
    let shift := r.shift ||| if v.toNat % 2 = 1 then BitVec.ofNat 5 (2 ^ r.count.val) else 0
    let q : Mmc1 := { r with lastWritePC := some s.pc }
    if r.count = 4 then mmc1Install (mmc1Route a shift q) s
    else { s with mapper := .mmc1 { q with shift := shift, count := r.count + 1 } } := by
  have h7 : ¬ v.getLsbD 7 = true := by rwa [Byte.bit7, decide_eq_true_eq, Nat.not_le]
  rw [mmc1Write, if_neg h, ← mmc1_dataBit]
  exact if_neg h7

end

/-- The register that takes the fifth bit, by the 8KB range of the address (R145). -/
theorem mmc1Route_eq {a : Word} (ha : 0x8000 ≤ a.toNat) (value : BitVec 5) (r : Mmc1) : mmc1Route a value r =
    let q : Mmc1 := { r with shift := 0, count := 0 }
    if a.toNat < 0xA000 then { q with control := value }
    else if a.toNat < 0xC000 then { q with chr0 := value }
    else if a.toNat < 0xE000 then { q with chr1 := value }
    else { q with prg := value } := by
  obtain ⟨h1, h14, h13⟩ | ⟨h1, h2, h14, h13⟩ | ⟨h1, h2, h3, h14, h13⟩ | ⟨h1, h2, h3, h14, h13⟩ :=
    registerRange ha
  · simp only [mmc1Route, h14, h13, if_pos h1]
  · simp only [mmc1Route, h14, h13, if_neg h1, if_pos h2]
  · simp only [mmc1Route, h14, h13, if_neg h1, if_neg h2, if_pos h3]
  · simp only [mmc1Route, h14, h13, if_neg h1, if_neg h2, if_neg h3]

/-- Settles O45, by the filter, the reset write and the data writes. -/
theorem mmc1SerialPort : Obligations.Mmc1SerialPort := by
  intro s r a v hm ha s' r' shift done
  have hwrite : memWrite a v s = mmc1Write r a v s' := by
    rw [memWrite_of_mapper hm ha]
    simp only [mapperWrite, s', hm]
  rw [hwrite]
  refine ⟨fun h => mmc1Write_repeated h, fun h hv => mmc1Write_reset h hv, fun h hv hc => ?fewer,
    fun h hv hc => ?fifth⟩
  case fewer =>
    have hne : r.count ≠ 4 := fun e => absurd hc (by rw [e]; decide)
    refine ⟨r.count + 1, Fin.val_add_one_of_lt (i := r.count) (Fin.lt_last_iff_ne_last.mpr hne), ?_⟩
    rw [mmc1Write_data (s := s') h hv]
    exact if_neg hne
  case fifth =>
    rw [mmc1Write_data (s := s') h hv]
    exact (if_pos (Fin.ext hc)).trans (congrArg done (mmc1Route_eq ha shift r'))

/-! ### The offsets (R149 to R152) -/

theorem WindowsOnly.cart {s t : State} (h : WindowsOnly s t) : t.cart = s.cart := by rw [h]

/-- A recomputation of PRG leaves the CHR table alone. -/
theorem mmc1Prg_chrWin (r : Mmc1) (s : State) : (mmc1Prg r s).chrWin = s.chrWin := by
  unfold mmc1Prg
  simp only
  split <;> rfl

/-- `control[3:2]` as a number. -/
theorem mmc1_prgMode (control : BitVec 5) :
    control.toNat / 4 % 4 = 2 * (control.getLsbD 3).toNat + (control.getLsbD 2).toNat := by
  revert control
  decide

/-- `control[1:0]` as a number. -/
theorem mmc1_mirrorMode (control : BitVec 5) :
    control.toNat % 4 = 2 * (control.getLsbD 1).toNat + (control.getLsbD 0).toNat := by
  revert control
  decide

/-- `control[4]` as a comparison. -/
theorem mmc1_chrMode (control : BitVec 5) : control.toNat / 16 = 0 ↔ ¬ control.getLsbD 4 = true := by
  revert control
  decide

theorem mmc1_prgBank (prg : BitVec 5) : bankNo (prg.extractLsb' 0 4) = ((prg.toNat % 16 : Nat) : Int) := by
  rw [bankNo, BitVec.extractLsb'_toNat, Nat.shiftRight_zero]

/-- A 32KB bank as a table. -/
theorem prg32_ofFn (b : Nat) (s : State) :
    prg32 b s = { s with prgWin := Vector.ofFn fun j => prgPart s.prgLen b j.val 0x8000 } := by
  rw [vector_ofFn_four]
  exact prg32_parts b s

/-- Two 4KB banks as a table. -/
theorem chr4_both_ofFn (b c : Nat) (s : State) : chr4High c (chr4Low b s) = { s with chrWin := Vector.ofFn fun j =>
    ((if j.val < 4 then b else c) * 0x1000 + j.val % 4 * 0x400) % s.chrLen } := by
  rw [chr4_both, vector_ofFn_eight]
  simp

/-- Settles O46: each table by the bits of `control` that choose it. -/
theorem mmc1Offsets : Obligations.Mmc1Offsets := by
  intro s r hu prgLen chrLen b p16 t
  have hwin := mmc1Recompute_windows r s
  have hmirroring : t.mirroring = mmc1Mirroring r.control := congrArg State.mirroring hwin
  refine ⟨?frame, ?prg, ?chr, ?mirroring⟩
  case frame =>
    rw [hmirroring]
    exact hwin
  case prg =>
    have hb : bankNo (r.prg.extractLsb' 0 4) = (b : Int) := mmc1_prgBank r.prg
    have hcart := (mmc1Chr_windows r { s with mirroring := mmc1Mirroring r.control }).cart
    show (mmc1Prg r (mmc1Chr r _)).prgWin = _
    generalize mmc1Chr r _ = u at hcart ⊢
    have hlen : u.prgLen = prgLen := congrArg (fun c => 16384 * c.prgUnits) hcart
    have hlast : u.last16 = ((s.cart.prgUnits - 1 : Nat) : Int) := by rw [last16_eq (hcart ▸ hu), hcart]
    rw [mmc1_prgMode, mmc1Prg, hb, hlast]
    cases r.control.getLsbD 3
    · have h32 := congrArg State.prgWin (prg32_ofFn (b / 2) u)
      rw [hlen] at h32
      cases r.control.getLsbD 2 <;> exact h32
    · cases r.control.getLsbD 2
      · exact (congrArg State.prgWin (prg16_both_parts 0 b u)).trans (by rw [hlen]; rfl)
      · exact (congrArg State.prgWin (prg16_both_parts b _ u)).trans (by rw [hlen]; rfl)
  case chr =>
    show (mmc1Prg r (mmc1Chr r _)).chrWin = _
    rw [mmc1Prg_chrWin, mmc1Chr]
    by_cases hmode : r.control.toNat / 16 = 0
    · rw [if_pos hmode, if_neg ((mmc1_chrMode _).mp hmode), bankNo_shiftRight, chr8_eq]
      rfl
    · rw [if_neg hmode, if_pos (not_not.mp (mt (mmc1_chrMode _).mpr hmode))]
      refine (congrArg State.chrWin (chr4_both_ofFn _ _ _)).trans ?_
      simp only [vector_ofFn_eight]
      rfl
  case mirroring =>
    rw [hmirroring, mmc1_mirrorMode, mmc1Mirroring]
    cases r.control.getLsbD 1 <;> cases r.control.getLsbD 0 <;> rfl

end Sys2Proof.Machine

/-!
PROOFS. MMC3 and Namco 108 (spec/21_memory_mappers.md R160 to R176): their register writes, the offsets of the eight
bank registers, and the scanline counter.
-/
namespace Sys2Proof.Machine

/-! ### Register writes (R161 to R165, R168 to R170, R173, R175) -/

theorem mirroringBit0_eq (v : Byte) : mirroringBit0 v = if v.toNat % 2 = 0 then .vertical else .horizontal := by
  revert v
  decide

/-- The write to the bank register that `bankSelect` points at (R163). -/
theorem mmc3_setBank (r : Mmc3) (v : Byte) :
    r.r.set (r.bankSelect.extractLsb' 0 3).toNat v (r.bankSelect.extractLsb' 0 3).isLt =
      r.r.set (r.bankSelect.toNat % 8) v (Nat.mod_lt _ (by decide)) := rfl

/-- The register that a write reaches, by the 8KB range and the parity of the address. -/
theorem mmc3Write_eq (r : Mmc3) {a : Word} (ha : 0x8000 ≤ a.toNat) (v : Byte) (s : State) : mmc3Write r a v s =
    if a.toNat < 0xA000 then
      if a.toNat % 2 = 1 then
        mmc3Install { r with r := r.r.set (r.bankSelect.toNat % 8) v (Nat.mod_lt _ (by decide)) } s
      else mmc3Install { r with bankSelect := v } s
    else if a.toNat < 0xC000 then
      if a.toNat % 2 = 1 then s else { s with mirroring := mirroringBit0 v }
    else if a.toNat < 0xE000 then
      if a.toNat % 2 = 1 then { s with mapper := .mmc3 { r with irqCounter := 0 } }
      else { s with mapper := .mmc3 { r with irqLatch := v } }
    else if a.toNat % 2 = 1 then { s with mapper := .mmc3 { r with irqEnabled := true } }
    else { s with mapper := .mmc3 { r with irqEnabled := false }, irqPending := false } := by
  have h0 : a.getLsbD 0 = decide (a.toNat % 2 = 1) := by rw [Word.getLsbD_eq, pow_zero, Nat.div_one]
  rw [mmc3Write, h0, mmc3_setBank]
  by_cases odd : a.toNat % 2 = 1
  all_goals
    simp only [odd, decide_true, decide_false, if_true, if_false]
    obtain ⟨h1, h14, h13⟩ | ⟨h1, h2, h14, h13⟩ | ⟨h1, h2, h3, h14, h13⟩ | ⟨h1, h2, h3, h14, h13⟩ :=
      registerRange ha
    · rw [h14, h13, if_pos h1]
    · rw [h14, h13, if_neg h1, if_pos h2]
    · rw [h14, h13, if_neg h1, if_neg h2, if_pos h3]
    · rw [h14, h13, if_neg h1, if_neg h2, if_neg h3]

/-- Namco 108 decodes 0x8000-0x9FFF only, by the parity of the address. -/
theorem namco108Write_eq (r : Namco108) {a : Word} (ha : 0x8000 ≤ a.toNat) (v : Byte) (s : State) :
    namco108Write r a v s =
      if 0xA000 ≤ a.toNat then s
      else if a.toNat % 2 = 0 then { s with mapper := .namco108 { r with sel := v.extractLsb' 0 3 } }
      else namco108Install { r with r := r.r.set r.sel.toNat v r.sel.isLt } s := by
  have h0 : a.getLsbD 0 = !decide (a.toNat % 2 = 0) := by
    rw [Word.getLsbD_eq, pow_zero, Nat.div_one, ← decide_not, decide_eq_decide, Nat.mod_two_not_eq_zero]
  rw [namco108Write, h0]
  obtain ⟨h1, h14, h13⟩ | ⟨h1, h2, h14, h13⟩ | ⟨h1, h2, h3, h14, h13⟩ | ⟨h1, h2, h3, h14, h13⟩ :=
    registerRange ha
  · rw [h14, h13, if_neg (Nat.not_le.mpr h1)]
    split_ifs with even <;> simp only [even, decide_true, decide_false, Bool.not_true, Bool.not_false]
  all_goals rw [h14, h13, if_pos (Nat.not_lt.mp h1)]

/-- Settles O47, by the registers that the writes reach. -/
theorem indexedBankRegisters : Obligations.IndexedBankRegisters := by
  refine ⟨fun s r a v hm ha => ?mmc3, fun s r a v hm ha => ?namco108,
    namco108PowerOn, rfl, rfl, fun k => Vector.getElem_replicate .., fun _ => rfl⟩
  case mmc3 =>
    intro s' done odd k
    have hwrite : memWrite a v s = mmc3Write r a v s' := by
      rw [memWrite_of_mapper hm ha]
      simp only [mapperWrite, s', hm]
    rw [hwrite, mmc3Write_eq r ha, mirroringBit0_eq]
    rfl
  case namco108 =>
    intro s' k q
    have hwrite : memWrite a v s = namco108Write r a v s' := by
      rw [memWrite_of_mapper hm ha]
      simp only [mapperWrite, s', hm]
    rw [hwrite, namco108Write_eq r ha]
    rfl

/-! ### The offsets of the bank registers (R166, R167, R176) -/

/-- The even bank of a pair (R167). -/
theorem bankNo_even (v : Byte) : bankNo (v &&& 0xFE) = ((v.toNat / 2 * 2 : Nat) : Int) := by
  have h : ∀ v : Byte, (v &&& 0xFE).toNat = v.toNat / 2 * 2 := by decide
  rw [bankNo, h]

/-- The odd bank of a pair (R167). -/
theorem bankNo_odd (v : Byte) : bankNo (v ||| 1) = ((v.toNat / 2 * 2 + 1 : Nat) : Int) := by
  have h : ∀ v : Byte, (v ||| 1).toNat = v.toNat / 2 * 2 + 1 := by decide
  rw [bankNo, h]

/-- The offset of 8KB PRG bank `b` (R123). -/
def State.prgBank8 (s : State) (b : Nat) : Nat := b * 0x2000 % s.prgLen

/-- The offset of 1KB CHR bank `b` (R123). -/
def State.chrBank1 (s : State) (b : Nat) : Nat := b * 0x400 % s.chrLen

theorem prg8_four_banks (b0 b1 b2 b3 : Nat) (s : State) : prg8 3 b3 (prg8 2 b2 (prg8 1 b1 (prg8 0 b0 s))) =
    { s with prgWin := #v[s.prgBank8 b0, s.prgBank8 b1, s.prgBank8 b2, s.prgBank8 b3] } := by
  simp only [prg8_four, bankOffset_natCast, Nat.add_zero, State.prgBank8]

theorem chr1_eight_banks (b0 b1 b2 b3 b4 b5 b6 b7 : Nat) (s : State) :
    chr1 7 b7 (chr1 6 b6 (chr1 5 b5 (chr1 4 b4 (chr1 3 b3 (chr1 2 b2 (chr1 1 b1 (chr1 0 b0 s))))))) = { s with
      chrWin := #v[s.chrBank1 b0, s.chrBank1 b1, s.chrBank1 b2, s.chrBank1 b3, s.chrBank1 b4, s.chrBank1 b5,
        s.chrBank1 b6, s.chrBank1 b7] } := by
  simp only [chr1_eight, bankOffset_natCast, Nat.add_zero, State.chrBank1]

/-- The four 1KB windows of the two pairs (R167). -/
def State.chrPairs (s : State) (r : Vector Byte 8) : List Nat :=
  [s.chrBank1 (r[0].toNat / 2 * 2), s.chrBank1 (r[0].toNat / 2 * 2 + 1), s.chrBank1 (r[1].toNat / 2 * 2),
    s.chrBank1 (r[1].toNat / 2 * 2 + 1)]

/-- The four 1KB windows of single banks (R167). -/
def State.chrSingles (s : State) (r : Vector Byte 8) : List Nat :=
  [s.chrBank1 r[2].toNat, s.chrBank1 r[3].toNat, s.chrBank1 r[4].toNat, s.chrBank1 r[5].toNat]

theorem mmc3Recompute_windows (r : Mmc3) (s : State) : WindowsOnly s (mmc3Recompute r s) :=
  (mmc3Prg_windows r s).trans (mmc3Chr_windows r _)

theorem mmc3Chr_chrWin (r : Mmc3) (s : State) : (mmc3Chr r s).chrWin.toList =
    if r.bankSelect.getLsbD 7 then s.chrSingles r.r ++ s.chrPairs r.r else s.chrPairs r.r ++ s.chrSingles r.r := by
  rw [mmc3Chr]
  split
  all_goals
    simp only [bankNo_even, bankNo_odd]
    exact congrArg (fun t => t.chrWin.toList) (chr1_eight_banks _ _ _ _ _ _ _ _ s)

theorem mmc3Prg_prgWin (r : Mmc3) {s : State} (hu : 1 ≤ s.cart.prgUnits) :
    (mmc3Prg r s).prgWin.toList =
      let last := 2 * s.cart.prgUnits - 1
      if r.bankSelect.getLsbD 6 then
        [s.prgBank8 (last - 1), s.prgBank8 r.r[7].toNat, s.prgBank8 r.r[6].toNat, s.prgBank8 last]
      else [s.prgBank8 r.r[6].toNat, s.prgBank8 r.r[7].toNat, s.prgBank8 (last - 1), s.prgBank8 last] := by
  have hprev : ((2 * s.cart.prgUnits - 1 : Nat) : Int) - 1 = ((2 * s.cart.prgUnits - 1 - 1 : Nat) : Int) := by omega
  rw [mmc3Prg, last8_eq hu, hprev]
  split <;> exact congrArg (fun t => t.prgWin.toList) (prg8_four_banks _ _ _ _ s)

/-- The CHR recomputation leaves the PRG table alone. -/
theorem mmc3Chr_prgWin (r : Mmc3) (s : State) : (mmc3Chr r s).prgWin = s.prgWin := by
  rw [mmc3Chr]
  split <;> exact (congrArg State.prgWin (chr1_eight _ _ _ _ _ _ _ _ s)).trans rfl

/-- The PRG recomputation leaves the CHR offsets alone. -/
theorem mmc3Prg_chrBank1 (r : Mmc3) (s : State) : (mmc3Prg r s).chrBank1 = s.chrBank1 := by
  rw [mmc3Prg_windows r s]
  rfl

/-- The bank registers of Namco 108 as those of an MMC3 with a `bankSelect` of 0. -/
def Namco108.asMmc3 (r : Namco108) : Mmc3 where
  bankSelect := 0
  r := r.r
  irqLatch := 0
  irqCounter := 0
  irqEnabled := false

theorem Namco108.asMmc3_getLsbD (r : Namco108) (i : Nat) : ¬ r.asMmc3.bankSelect.getLsbD i = true := by
  simp [Namco108.asMmc3]

/-- Namco 108 does what MMC3 does with a `bankSelect` of 0 (R176). -/
theorem namco108Recompute_eq (r : Namco108) (s : State) : namco108Recompute r s = mmc3Recompute r.asMmc3 s := by
  rw [namco108Recompute, mmc3Recompute, mmc3Chr, mmc3Prg, if_neg (r.asMmc3_getLsbD 6),
    if_neg (r.asMmc3_getLsbD 7)]
  rfl

theorem mmc3Recompute_prgWin (r : Mmc3) (s : State) : (mmc3Recompute r s).prgWin = (mmc3Prg r s).prgWin :=
  mmc3Chr_prgWin r _

theorem mmc3Recompute_chrWin (r : Mmc3) (s : State) : (mmc3Recompute r s).chrWin.toList =
    if r.bankSelect.getLsbD 7 then s.chrSingles r.r ++ s.chrPairs r.r else s.chrPairs r.r ++ s.chrSingles r.r := by
  rw [mmc3Recompute, mmc3Chr_chrWin, State.chrSingles, State.chrPairs, mmc3Prg_chrBank1]
  rfl

/-- Settles O48, by the two tables of MMC3. -/
theorem mmc3Offsets : Obligations.Mmc3Offsets := by
  intro s q m hu last p chrLen c even pairs singles t u
  have hprg (r : Mmc3) := (congrArg Vector.toList (mmc3Recompute_prgWin r s)).trans (mmc3Prg_prgWin r hu)
  have hn : u = mmc3Recompute m.asMmc3 s := namco108Recompute_eq m s
  refine ⟨mmc3Recompute_windows q s, hprg q, mmc3Recompute_chrWin q s, ?_⟩
  rw [hn]
  exact ⟨mmc3Recompute_windows _ s, (hprg m.asMmc3).trans (if_neg (m.asMmc3_getLsbD 6)),
    (mmc3Recompute_chrWin m.asMmc3 s).trans (if_neg (m.asMmc3_getLsbD 7))⟩

/-! ### The scanline counter (R171) -/

section
variable {s : State} {r : Mmc3} (hm : s.mapper = .mmc3 r)
include hm

theorem scanlineTick_mmc3 : scanlineTick s = mmc3Tick r s := by rw [scanlineTick, hm]

/-- A counter of 0 reloads. -/
theorem scanlineTick_reload (h0 : r.irqCounter = 0) :
    scanlineTick s = { s with mapper := .mmc3 { r with irqCounter := r.irqLatch } } := by
  rw [scanlineTick_mmc3 hm, mmc3Tick, if_pos h0]

/-- Another counts down, and raises the IRQ where it reaches 0 with the interrupt enabled. -/
theorem scanlineTick_count {k : Nat} (hk : r.irqCounter.toNat = k + 1) : scanlineTick s = { s with
    mapper := .mmc3 { r with irqCounter := BitVec.ofNat 8 k }
    irqPending := if k = 0 ∧ r.irqEnabled = true then true else s.irqPending } := by
  have hne : r.irqCounter ≠ 0 := fun e => by rw [e] at hk; cases hk
  have hpred : r.irqCounter - 1 = BitVec.ofNat 8 k := by bv_omega
  have hzero : (BitVec.ofNat 8 k == 0) = decide (k = 0) := by
    have := r.irqCounter.isLt
    rw [beq_eq_decide, decide_eq_decide]
    bv_omega
  have hraise : (decide (k = 0) && r.irqEnabled) = decide (k = 0 ∧ r.irqEnabled = true) := by
    rw [Bool.decide_and, Bool.decide_eq_true]
  rw [scanlineTick_mmc3 hm, mmc3Tick, if_neg hne, hpred, hzero, hraise]
  by_cases h : k = 0 ∧ r.irqEnabled = true
  · rw [if_pos h, decide_eq_true h, Bool.or_true]
  · rw [if_neg h, decide_eq_false h, Bool.or_false]

end

theorem scanlineTick_of_not_mmc3 {s : State} (h : ∀ r, s.mapper ≠ .mmc3 r) : scanlineTick s = s := by
  unfold scanlineTick
  split
  · next r hm => exact absurd hm (h r)
  · rfl

/-- Ticks before the last count down and do nothing else. -/
theorem scanlineTicks_count {s : State} {r : Mmc3} (hm : s.mapper = .mmc3 r) {n : Nat} (hn : n ≠ 0) (k : Nat)
    (h : r.irqCounter.toNat = n + k) :
    scanlineTick^[k] s = { s with mapper := .mmc3 { r with irqCounter := BitVec.ofNat 8 n } } := by
  induction k generalizing n with
  | zero =>
    have hc : BitVec.ofNat 8 n = r.irqCounter := by bv_omega
    rw [hc]
    exact congrArg (fun m => ({ s with mapper := m } : State)) hm
  | succ k ih =>
    have hlt := r.irqCounter.isLt
    have hc : (BitVec.ofNat 8 (n + 1)).toNat = n + 1 := by rw [BitVec.toNat_ofNat]; omega
    rw [Function.iterate_succ_apply', ih (Nat.succ_ne_zero n) (by omega), scanlineTick_count rfl hc,
      if_neg fun h0 => hn h0.1]

/-- A counter of 0 that reloads from 0 stands still. -/
theorem scanlineTick_zero {s : State} {r : Mmc3} (hm : s.mapper = .mmc3 r) (h0 : r.irqCounter = 0)
    (hl : r.irqLatch = 0) : scanlineTick s = s := by
  have hr : ({ r with irqCounter := r.irqLatch } : Mmc3) = r :=
    congrArg (fun c => ({ r with irqCounter := c } : Mmc3)) (hl.trans h0.symm)
  rw [scanlineTick_reload hm h0, hr, ← hm]

/-- Settles O49: the ticks before the last by `scanlineTicks_count`, the last and the reload one by one. -/
theorem mmc3ScanlineCounter : Obligations.Mmc3ScanlineCounter := by
  unfold Obligations.Mmc3ScanlineCounter
  intro ticks at'
  refine ⟨fun s r hm hpos hclear => ?count, fun s r k hm h0 hl => ?still, fun s k h => ?other, fun s ha => ?perform,
    fun s r hm => ⟨fun h0 => scanlineTick_reload hm (BitVec.eq_of_toNat_eq h0),
      fun k hk => scanlineTick_count hm hk⟩⟩
  case count =>
    have hlast : ticks r.irqCounter.toNat s =
        { s with mapper := .mmc3 { r with irqCounter := 0 }, irqPending := r.irqEnabled } := by
      have hone := scanlineTicks_count hm Nat.one_ne_zero (r.irqCounter.toNat - 1) (by omega)
      show scanlineTick^[r.irqCounter.toNat] s = _
      rw [← Nat.sub_add_cancel hpos, Function.iterate_succ_apply', hone, scanlineTick_count (k := 0) rfl rfl, hclear]
      cases r.irqEnabled <;> rfl
    refine ⟨fun k hk => ?_, hlast, ?_⟩
    · have hc : r.irqCounter - BitVec.ofNat 8 k = BitVec.ofNat 8 (r.irqCounter.toNat - k) := by bv_omega
      simp only [at', hc]
      exact scanlineTicks_count hm (by omega) k (by omega)
    · refine (Function.iterate_succ_apply' scanlineTick _ s).trans ?_
      exact (congrArg scanlineTick hlast).trans (scanlineTick_reload (r := { r with irqCounter := 0 }) rfl rfl)
  case still => exact Function.iterate_fixed (scanlineTick_zero hm h0 hl) k
  case other => exact Function.iterate_fixed (scanlineTick_of_not_mmc3 h) k
  case perform =>
    obtain ⟨hrun, hcancel⟩ := ha
    rw [HostAction.perform, hcancel, hrun]
    rfl

end Sys2Proof.Machine

/-!
PROOFS. MMC2 and MMC4 (spec/21_memory_mappers.md R180 to R188): the register writes, the CHR latches that a read
switches, and the offsets of both. The two variants are taken together, as the flag `is4` says which.
-/
namespace Sys2Proof.Machine

/-! ### The two variants as one -/

/-- The variant with these registers: MMC4 or MMC2. -/
def LatchMapper.variant (is4 : Bool) (r : LatchMapper) : Mapper := if is4 then .mmc4 r else .mmc2 r

/-- `LatchRecompute()` of the variant, with the registers put in place (R187). -/
def latchInstall (is4 : Bool) (r : LatchMapper) (s : State) : State :=
  if is4 then mmc4Install r s else mmc2Install r s

/-- Which latch a read of `a` sets to what (R182). -/
def latchTrigger (is4 : Bool) (a : PpuAddr) : Option (Bool × Latch) := if is4 then mmc4Trigger a else mmc2Trigger a

/-- A CPU write sets a register or the mirroring and recomputes, or is ignored (R181). -/
theorem memWrite_latch {s : State} {r : LatchMapper} {is4 : Bool} (hm : s.mapper = r.variant is4) {a : Word}
    (ha : 0x8000 ≤ a.toNat) (v : Byte) : memWrite a v s =
      (latchRegWrite r a v).elim { s with bus := .write a v :: s.bus } fun q => latchInstall is4 q
        { s with mirroring := latchMirroring a v s.mirroring, bus := .write a v :: s.bus } := by
  rw [memWrite_of_mapper hm ha]
  cases is4
  · have hm2 : s.mapper = .mmc2 r := hm
    show mmc2Write r a v { s with mapper := .mmc2 r, bus := .write a v :: s.bus } = _
    rw [← hm2, mmc2Write]
    cases latchRegWrite r a v <;> rfl
  · have hm4 : s.mapper = .mmc4 r := hm
    show mmc4Write r a v { s with mapper := .mmc4 r, bus := .write a v :: s.bus } = _
    rw [← hm4, mmc4Write]
    cases latchRegWrite r a v <;> rfl

/-- A CHR read sets a latch and recomputes, or does nothing (R183). -/
theorem chrReadEffect_latch {s : State} {r : LatchMapper} {is4 : Bool} (hm : s.mapper = r.variant is4) (a : PpuAddr) :
    chrReadEffect a s = (latchTrigger is4 a).elim s fun t => latchInstall is4 (r.withLatch t) s := by
  cases is4
  · have hm2 : s.mapper = .mmc2 r := hm
    rw [chrReadEffect, hm2]
    show _ = (mmc2Trigger a).elim s _
    cases mmc2Trigger a <;> rfl
  · have hm4 : s.mapper = .mmc4 r := hm
    rw [chrReadEffect, hm4]
    show _ = (mmc4Trigger a).elim s _
    cases mmc4Trigger a <;> rfl

/-! ### The offsets (R184 to R187) -/

theorem latchChr_eq (r : LatchMapper) (s : State) : latchChr r s = { s with chrWin := Vector.ofFn fun j =>
    ((if j.val < 4 then (if r.latch0 = .fd then r.chrFD0 else r.chrFE0)
      else if r.latch1 = .fd then r.chrFD1 else r.chrFE1).toNat * 0x1000 + j.val % 4 * 0x400) % s.chrLen } := by
  refine (chr4_both_ofFn _ _ s).trans ?_
  simp only [apply_ite BitVec.toNat]
  cases r.latch0 <;> cases r.latch1 <;> rfl

/-- The offset of an 8KB bank, whose number may be negative (R123). -/
theorem bankOffset_whole (len unit : Nat) (b : Int) : bankOffset len unit 0 b = (b * unit % len).toNat := by
  rw [bankOffset, Int.natCast_zero, Int.add_zero]

theorem mmc2Install_eq (r : LatchMapper) (s : State) : mmc2Install r s =
    let p8 (b : Int) : Nat := (b * (0x2000 : Nat) % s.prgLen).toNat
    { s with
      mapper := .mmc2 r
      prgWin := #v[p8 r.prgBank.toNat, p8 (s.last8 - 2), p8 (s.last8 - 1), p8 s.last8]
      chrWin := (latchChr r s).chrWin } := by
  rw [mmc2Install, latchChr_eq, latchChr_eq]
  refine (prg8_four _ _ _ _ _).trans ?_
  simp only [bankOffset_whole]
  rfl

theorem mmc4Install_eq (r : LatchMapper) {s : State} (hu : 1 ≤ s.cart.prgUnits) : mmc4Install r s =
    let p16 (b part : Nat) : Nat := prgPart s.prgLen b part 0x4000
    let last := s.cart.prgUnits - 1
    { s with
      mapper := .mmc4 r
      prgWin := #v[p16 r.prgBank.toNat 0, p16 r.prgBank.toNat 1, p16 last 0, p16 last 1]
      chrWin := (latchChr r s).chrWin } := by
  have hlast : (latchChr r { s with mapper := .mmc4 r }).last16 = ((s.cart.prgUnits - 1 : Nat) : Int) := by
    rw [latchChr_eq]
    exact last16_eq hu
  rw [mmc4Install, hlast, latchChr_eq, latchChr_eq]
  exact prg16_both_parts _ _ _

/-! ### The register and trigger addresses as numbers (R181, R182) -/

/-- Whether `n` is the trigger address `base`, or one of the group of 8 from it on. -/
def triggerHit (n base : Nat) (single : Bool) : Bool := n == base || (!single && base ≤ n && n < base + 8)

theorem triggerHit_single (n base : Nat) : triggerHit n base true = true ↔ n = base := by
  simp [triggerHit]

theorem triggerHit_group (n base : Nat) : triggerHit n base false = true ↔ base ≤ n ∧ n ≤ base + 7 := by
  simp only [triggerHit, Bool.or_eq_true, Bool.and_eq_true, beq_iff_eq, decide_eq_true_eq, Bool.not_false, true_and]
  omega

theorem latchTrigger_eq (is4 : Bool) (a : PpuAddr) : latchTrigger is4 a =
    if triggerHit a.toNat 0x0FD8 (!is4) then some (false, .fd)
    else if triggerHit a.toNat 0x0FE8 (!is4) then some (false, .fe)
    else if triggerHit a.toNat 0x1FD8 false then some (true, .fd)
    else if triggerHit a.toNat 0x1FE8 false then some (true, .fe)
    else none := by
  cases is4
  · simp only [Bool.not_false, triggerHit_single, triggerHit_group]
    rfl
  · simp only [Bool.not_true, triggerHit_group]
    rfl

theorem registerNibble (a : Word) : (a.extractLsb' 12 4).toNat = a.toNat / 0x1000 := by
  have := a.isLt
  rw [BitVec.extractLsb'_toNat, Nat.shiftRight_eq_div_pow]
  omega

/-- Settles O50: the writes by the address's high digit, the reads by the trigger addresses. -/
theorem latchRegistersAndReads : Obligations.LatchRegistersAndReads := by
  intro s r is4 hu kind prgLen chrLen p8 p16 last8 chr prg done hm
  have hinstall (q : LatchMapper) (u : State) (hc : u.cart = s.cart) : latchInstall is4 q u = done q u := by
    have hunits : u.cart.prgUnits = s.cart.prgUnits := congrArg Cartridge.prgUnits hc
    have hprg : u.prgLen = prgLen := congrArg (16384 * ·) hunits
    have hchrLen : u.chrLen = chrLen := by rw [State.chrLen, hc]
    have hchr : (latchChr q u).chrWin = chr q := by
      rw [latchChr_eq, hchrLen]
    have hlast : u.last8 = last8 := by
      rw [last8_eq (hunits ▸ hu), hunits]
      omega
    cases is4
    · refine (mmc2Install_eq q u).trans ?_
      rw [hprg, hchr, hlast]
      rfl
    · refine (mmc4Install_eq q (hunits ▸ hu)).trans ?_
      rw [hprg, hchr, hunits]
      rfl
  refine ⟨fun a v ha => ?write, fun n hn => ?read⟩
  case write =>
    intro s'
    have hlt := a.isLt
    have hlow : 8 ≤ a.toNat / 0x1000 := by omega
    have hhigh : a.toNat / 0x1000 < 16 := by omega
    rw [memWrite_latch hm ha, latchRegWrite, latchMirroring, registerNibble, mirroringBit0_eq]
    generalize a.toNat / 0x1000 = d at hlow hhigh ⊢
    interval_cases d
    · rfl
    · rfl
    all_goals exact hinstall _ _ rfl
  case read =>
    intro v s' hit
    have ha : (BitVec.ofNat 14 n).toNat = n := by rw [BitVec.toNat_ofNat]; omega
    have hr : n % 0x4000 < 0x2000 := by omega
    have hv : (ppuRead n s).1 = v := by
      rw [ppuRead_fst, ppuPeek_chr s hr]
      simp only [State.chrIndex, ha, v]
    refine Prod.ext hv ?_
    rw [ppuRead_snd_chr s hr, hv, chrReadEffect_latch (s := s') hm, latchTrigger_eq, ha]
    have hhit : hit = triggerHit n := rfl
    rw [hhit]
    split_ifs
    case neg => rfl
    all_goals exact hinstall _ s' rfl

end Sys2Proof.Machine

/-!
PROOFS. The encoding (spec/30_encoding.md R230 to R240): what the decoder does with enough operand bytes and with too
few, from which the two round trips follow; and the opcode table against the rows of the instruction rules.
-/
namespace Sys2Proof

/-! ### The decoder, by the number of operand bytes (R230) -/

/-- The operand bytes of a row are none, one or two (R230). -/
theorem Mode.operandBytes_cases {m : Mode} {os : List Byte} (h : os.length + 1 = m.length) :
    os = [] ∨ (∃ b1, os = [b1]) ∨ ∃ b1 b2, os = [b1, b2] := by
  rcases m.length_cases with hl | hl | hl
  · exact .inl (List.length_eq_zero_iff.mp (by omega))
  · exact .inr (.inl (List.length_eq_one_iff.mp (by omega)))
  · exact .inr (.inr (List.length_eq_two.mp (by omega)))

/-- With the operand bytes `os` of its row after it, an opcode byte decodes to the row's instruction of them. -/
theorem decode_cons_append {op : Byte} {os : List Byte} (h : os.length + 1 = (desc op).mode.length)
    (rest : List Byte) :
    decode (op :: (os ++ rest)) = .ok (decode3 op (os.getD 0 0) (os.getD 1 0), rest) := by
  unfold decode
  dsimp only
  rw [← h]
  obtain rfl | ⟨b1, rfl⟩ | ⟨b1, b2, rfl⟩ := Mode.operandBytes_cases h <;> rfl

/-- With fewer bytes after it than its row has, an opcode byte is refused. -/
theorem decode_cons_short {op : Byte} {bs : List Byte} (h : bs.length + 1 < (desc op).mode.length) :
    decode (op :: bs) = .error (.truncated (desc op).mode.length) := by
  unfold decode
  dsimp only
  split
  case h_1 => omega
  case h_2 | h_3 =>
    simp only [List.length_cons] at h
    omega
  case h_4 => rfl

/-- An opcode byte with enough bytes after it decodes, and takes its operand bytes only. -/
theorem decode_cons_of_le {op : Byte} {bs : List Byte} {n : Nat} (hn : n + 1 = (desc op).mode.length)
    (h : n ≤ bs.length) :
    decode (op :: bs) = .ok (decode3 op ((bs.take n).getD 0 0) ((bs.take n).getD 1 0), bs.drop n) := by
  have ht : (bs.take n).length + 1 = (desc op).mode.length := by rw [List.length_take_of_le h, hn]
  conv_lhs => rw [← List.take_append_drop n bs]
  exact decode_cons_append ht _

/-- The row's instruction of the operand bytes `os` is encoded by its opcode byte and `os`. -/
theorem encode_decode3 {op : Byte} {os : List Byte} (h : os.length + 1 = (desc op).mode.length) :
    encode (decode3 op (os.getD 0 0) (os.getD 1 0)) = op :: os := by
  rw [encode, decode3_opcode, decode3_operand, ← h]
  obtain rfl | ⟨b1, rfl⟩ | ⟨b1, b2, rfl⟩ := Mode.operandBytes_cases h <;> rfl

/-- Settles O1: the operand bytes of an instruction are those of its row. -/
theorem decodeOfEncode : Obligations.DecodeOfEncode := by
  intro i rest
  rw [encode, List.cons_append, decode_cons_append i.bytes_length, i.decode3_bytes]

/-- Settles O2: a list that decodes is an opcode byte with the operand bytes of its row after it. -/
theorem encodeOfDecode : Obligations.EncodeOfDecode := by
  intro bytes rest i h
  cases bytes with
  | nil => cases h
  | cons op bs =>
    obtain ⟨n, hn⟩ : ∃ n, n + 1 = (desc op).mode.length := by
      cases (desc op).mode <;> exact ⟨_, rfl⟩
    by_cases hle : n ≤ bs.length
    · rw [decode_cons_of_le hn hle] at h
      cases h
      rw [encode_decode3 (by rw [List.length_take_of_le hle, hn]), List.cons_append, List.take_append_drop]
    · rw [decode_cons_short (by omega)] at h
      cases h

/-- Settles O3, by `decode_cons_of_le` and `decode_cons_short`. -/
theorem everyOpcodeByteDecodes : Obligations.EveryOpcodeByteDecodes := by
  intro op bytes n
  have hn : n + 1 = (desc op).mode.length := by
    simp only [n]
    cases (desc op).mode <;> rfl
  refine ⟨fun h => ⟨_, decode_cons_of_le hn h, decode3_opcode _ _ _, ?_⟩, fun h => ?_⟩
  · rw [Instr.operand_mode, decode3_opcode]
  · rw [hn]
    exact decode_cons_short (by omega)

/-- Settles O4: each word is the code of its instruction, so it decodes to it (R231, R237). -/
theorem knownWordsDecode : Obligations.KnownWordsDecode :=
  ⟨decodeOfEncode (.ldaImm 0x00) [], decodeOfEncode (.staAbs 0x0200) [], decodeOfEncode (.ldxZpy 0x10) [],
    decodeOfEncode (.adcIndx 0x20) [], decodeOfEncode (.sbcIndy 0x40) [], decodeOfEncode .aslAcc [],
    decodeOfEncode (.incAbsx 0x1234) [], decodeOfEncode (.beq 0x06) [], decodeOfEncode (.jmpInd 0x30FF) [],
    decodeOfEncode (.jsr 0x9000) [], decodeOfEncode .brk [0xEA], decodeOfEncode .php [],
    decodeOfEncode (.sloAbsy 0x0210) [], decodeOfEncode (.sbcImmEB 0xF0) [], decodeOfEncode (.nopAbsx1C 0x00F0) [],
    decodeOfEncode .jam02 [], decodeOfEncode (.shaAbsy 0x1234) []⟩

/-! ### The opcode table and the instruction rules (R234 to R236, R238, R543) -/

/-- Every row of the table is one that the rule of its operation lists. -/
theorem desc_mem_rows (op : Byte) : (op, (desc op).mode) ∈ (desc op).operation.rows := by
  revert op; decide

/-- Every instruction is a row of the rule of its own operation. -/
theorem Instr.is_operation (i : Instr) : i.Is i.operation := by
  rw [Instr.Is, i.operand_mode]
  exact desc_mem_rows i.opcode

/-- The rows of a rule have the base cost of its operation and their mode. -/
theorem Operation.rows_cycles (op : Operation) : ∀ p ∈ op.rows, (desc p.1).cycles = op.baseCost p.2 := by
  cases op <;> decide

/-- Settles O5: the rows by rule, and the classes by a count of the table. -/
theorem theOpcodeTable : Obligations.TheOpcodeTable :=
  ⟨fun i => ⟨i.is_operation, i.operation.rows_cycles (i.opcode, i.operand.mode) i.is_operation⟩,
    by decide +kernel, by decide +kernel, by decide +kernel⟩

/-- The page-penalty flag of the rows of a rule (R235). -/
theorem Operation.rows_pagePenalty (op : Operation) : ∀ p ∈ op.rows, (desc p.1).pagePenalty = true ↔
    (op ∈ [.adc, .and, .cmp, .eor, .lda, .ora, .sbc] ∧ p.2 ∈ [.absx, .absy, .indy]) ∨
    (op = .ldx ∧ p.2 = .absy) ∨ (op = .ldy ∧ p.2 = .absx) ∨
    (op = .lax ∧ p.2 ∈ [.absy, .indy]) ∨ (op = .nop ∧ p.2 = .absx) := by
  cases op <;> decide

/-- An unofficial read-modify-write operation has no accumulator form (R435 to R440). -/
theorem Operation.rows_ne_acc {op : Operation} (h : op ∈ [Operation.dcp, .isc, .slo, .rla, .sre, .rra]) :
    ∀ p ∈ op.rows, p.2 ≠ .acc := by
  revert op; decide

/-- Settles O6, by the rows of the rule that the instruction belongs to. -/
theorem penaltyAndRmwFlagsOfTheTable : Obligations.PenaltyAndRmwFlagsOfTheTable := by
  intro i
  refine ⟨i.operation.rows_pagePenalty (i.opcode, i.operand.mode) i.is_operation, ?_⟩
  have hacc (h : i.operation ∈ [.dcp, .isc, .slo, .rla, .sre, .rra]) : i.operand.mode ≠ .acc :=
    Operation.rows_ne_acc h _ i.is_operation
  calc (desc i.opcode).rmw = true
    _ ↔ i.operation ∈ [.asl, .lsr, .rol, .ror, .inc, .dec] ++ [.dcp, .isc, .slo, .rla, .sre, .rra] ∧
        i.operand.mode ≠ .acc := by
      rw [Machine.Operation.rows_rmw i.operation (i.opcode, i.operand.mode) i.is_operation, decide_eq_true_iff]
      exact Iff.rfl
    _ ↔ _ := by rw [List.mem_append, or_and_right, and_iff_left_of_imp hacc]

end Sys2Proof

/-!
PROOFS. The engine and the addressing modes (spec/40_engine_addressing.md): the operand locations, the accesses that
reading, storing and read-modify-write rows make, the cost of a row, and the fetch.
-/
namespace Sys2Proof.Machine

/-! ### Operand locations as numbers (R268 to R281) -/

/-- The high bytes of base and effective address differ (R268). -/
theorem pageCross_eq (base ea : Word) : pageCross base ea = decide (base.toNat / 256 ≠ ea.toNat / 256) := by
  rw [pageCross, bne, beq_eq_decide, decide_eq_decide.mpr (Word.hi_eq_iff base ea), decide_not]

/-- A zero-page sum wraps modulo 256 (R274). -/
theorem zext_add_eq (z x : Byte) : (z + x).zext = BitVec.ofNat 16 ((z.toNat + x.toNat) % 256) := by
  rw [Byte.zext_eq, BitVec.toNat_add]

/-- An indexed address is the sum modulo 65536 (R276). -/
theorem add_zext_eq (w : Word) (x : Byte) : w + x.zext = BitVec.ofNat 16 (w.toNat + x.toNat) := by
  rw [BitVec.ofNat_add, BitVec.ofNat_toNat, BitVec.setWidth_eq, Byte.zext_eq]

/-- Settles O38, each address by the number it is. -/
theorem directEffectiveAddresses : Obligations.DirectEffectiveAddresses := by
  intro s v w
  refine ⟨rfl, rfl, rfl, rfl, ?zp, ?zpx, ?zpy, rfl, ?absx, ?absy⟩
  case zp => rw [resolve, Byte.zext_eq]
  case zpx | zpy => rw [resolve, zext_add_eq]
  case absx | absy => rw [resolve, pageCross_eq, add_zext_eq]

/-! ### Pointers (R278, R279, R281) -/

/-- A pointer in zero page is two reads that draw from no oracle. -/
theorem readPointer_zext (l h : Byte) (s : State) : readPointer l.zext h.zext s =
    ((s.peek h.zext).pair (s.peek l.zext),
      { s with bus := .read h.zext (s.peek h.zext) :: .read l.zext (s.peek l.zext) :: s.bus }) := by
  simp only [readPointer, memRead, peek_recordRead _ _ _ _ (oracleAddr_zext l)]
  simp [recordRead, bit]

/-- The next zero-page address after a sum. -/
theorem zext_add_one_eq (z : Byte) : (z + 1).zext = BitVec.ofNat 16 ((z.toNat + 1) % 256) := zext_add_eq z 1

theorem resolve_ind (w : Word) (s : State) :
    let high : Word := (w &&& 0xFF00) ||| ((w + 1) &&& 0x00FF)
    let l := s.peek w
    let h := (recordRead w l s).peek high
    resolve (.ind w) s = ⟨.mem (h.pair l), false, recordRead high h (recordRead w l s)⟩ := by
  rw [← Word.pageNext_eq]
  rfl

/-- Settles O39: the two pointer bytes by `readPointer_zext`, the same page by `Word.pageNext_eq`. -/
theorem pointerEffectiveAddresses : Obligations.PointerEffectiveAddresses := by
  intro s z w zero
  have hz : z.zext = zero z.toNat := by
    rw [Byte.zext_eq]
    exact congrArg _ (Nat.mod_eq_of_lt z.isLt).symm
  have hzx : (z + s.x).zext = zero (z.toNat + s.x.toNat) := zext_add_eq z s.x
  have hzx1 : (z + s.x + 1).zext = zero (z.toNat + s.x.toNat + 1) := by
    rw [zext_add_one_eq, BitVec.toNat_add, Nat.mod_add_mod]
  refine ⟨?indx, ?indy, resolve_ind w s⟩
  case indx =>
    simp only [resolve, readPointer_zext]
    rw [hzx, hzx1]
  case indy =>
    simp only [resolve, readPointer_zext]
    rw [hz, zext_add_one_eq, pageCross_eq, add_zext_eq]

/-! ### Jumps (R389) -/

/-- JMP in either mode: PC becomes the address that the resolver gives. -/
theorem exec_jmp {i : Instr} (h : i.Is .jmp) (s : State) : ∃ t, exec i s = .next t ∧
    EndsAs i s t { s with pc := (i.place s).address } ∧ t.bus = i.operand.pointerReads s ++ s.bus := by
  refine ⟨_, exec_of_is h (by decide) s, ?_, resolve_bus i.operand s⟩
  rw [EndsAs, charge_eq]
  rfl

/-- Settles O27: the place of the word itself, and that of the word at the pointer. -/
theorem jumpsSetThePc : Obligations.JumpsSetThePc := by
  intro w s
  refine ⟨exec_jmp (i := .jmpAbs w) List.mem_cons_self s, ?_⟩
  intro high l h
  have hplace : (Instr.jmpInd w).place s = .mem (h.pair l) := congrArg Resolved.place (resolve_ind w s)
  have hreads : (Operand.ind w).pointerReads s = [.read high h, .read w l] := by
    simp only [Operand.pointerReads, Word.pageNext_eq]
    rfl
  obtain ⟨t, hexec, hends, hbus⟩ := exec_jmp (i := .jmpInd w) (List.mem_cons_of_mem _ List.mem_cons_self) s
  rw [hplace, Place.address, Byte.pair_eq] at hends
  exact ⟨t, hexec, hends, hbus.trans (congrArg (· ++ s.bus) hreads)⟩

/-! ### Reading the operand (R265, R267) -/

/-- The operations that read their operand and store nothing. -/
def readingOps : List Operation :=
  [.lda, .ldx, .ldy, .lax, .adc, .sbc, .and, .ora, .eor, .bit, .cmp, .cpx, .cpy, .anc, .alr, .arr, .axs,
    .bpl, .bmi, .bvc, .bvs, .bcc, .bcs, .bne, .beq]

/-- A branch makes no bus access after the read of its offset, taken or not (R380). -/
theorem branch_bus (cond : Flags → Bool) (d : Desc) (p : Place) (s : State) :
    (branch cond d p s).bus = (operandRead p s).2.bus := by
  simp only [branch]
  split <;> rfl

/-- A reading operation makes no bus access but `OperandRead`'s. -/
theorem opBody_bus_of_reading {op : Operation} (h : op ∈ readingOps) (d : Desc) (p : Place) (s : State) :
    (opBody op d p s).bus = (operandRead p s).2.bus := by
  cases op
  case lda | ldx | ldy | lax => rfl
  case adc | sbc | and | ora | eor | bit | cmp | cpx | cpy => rfl
  case anc | alr | arr | axs => rfl
  case bpl | bmi | bvc | bvs | bcc | bcs | bne | beq => exact branch_bus _ d p s
  all_goals exact absurd h (by decide)

/-- A reading operation has an operand, and it is not the accumulator. -/
theorem Operation.rows_reading {op : Operation} (h : op ∈ readingOps) : ∀ p ∈ op.rows, p.2 ∉ [Mode.imp, .acc] := by
  revert op; decide

/-- An operand that is neither absent nor the accumulator is in memory, or is the byte at PC - 1 (R272, R280). -/
theorem place_of_mode {i : Instr} (s : State) (h : i.operand.mode ∉ [Mode.imp, .acc]) :
    ∃ a, i.place s = .mem a ∨ (i.place s = .inline (i.operandByte s) a ∧ a = s.pc - 1) := by
  rw [Instr.operandByte, Instr.place]
  cases ho : i.operand
  case imp | acc =>
    rw [ho] at h
    exact absurd (by decide) h
  case imm v | rel v => exact ⟨_, .inr ⟨rfl, rfl⟩⟩
  all_goals exact ⟨_, .inl rfl⟩

/-- Settles O25: the body's bus record is that after `OperandRead`, which reads at the operand's place. -/
theorem readingInstructionsReadOnce : Obligations.ReadingInstructionsReadOnce := by
  rintro i s ⟨op, hop, his⟩
  obtain ⟨a, hplace⟩ := place_of_mode s (Operation.rows_reading hop _ his)
  have hsupported : ∀ op ∈ readingOps, op ∉ unsupportedOps := by decide
  refine ⟨a, _, hplace, exec_of_is his (hsupported op hop) s, ?_⟩
  obtain ⟨d, hread⟩ := operandRead_charge i s
  have hreads : (i.place s).reads (i.operandByte s) = [.read a (i.operandByte s)] := by
    obtain hp | ⟨hp, -⟩ := hplace <;> rw [hp] <;> rfl
  rw [opBody_bus_of_reading hop, hread, hreads]
  rfl

/-! ### Writing the operand (R266) -/

/-- The operations that store a function of their operand. -/
def rmwOps : List Operation := [.asl, .lsr, .rol, .ror, .inc, .dec, .dcp, .isc, .slo, .rla, .sre, .rra]

/-- What a read-modify-write operation stores for the operand byte `m` and the carry before it (the last case is ROR
and RRA). -/
def rmwResult (op : Operation) (m : Byte) (c : Bool) : Byte :=
  match op with
  | .inc | .isc => m + 1
  | .dec | .dcp => m - 1
  | .asl | .slo => shiftLeft m
  | .rol | .rla => rotateLeft m c
  | .lsr | .sre => shiftRight m
  | _ => rotateRight m c

/-- A read-modify-write operation makes no bus access but `OperandRead`'s and the `OperandWrite` of its result. -/
theorem opBody_bus_of_rmw {op : Operation} (h : op ∈ rmwOps) (d : Desc) (p : Place) (s : State) :
    let q := operandRead p s
    (opBody op d p s).bus = (operandWrite d.rmw p q.1 (rmwResult op q.1 q.2.flags.c) q.2).bus := by
  cases op
  case inc | dec => rfl
  case asl | lsr | rol | ror => rfl
  case dcp | isc | slo | rla | sre | rra => rfl
  all_goals exact absurd h (by decide)

/-- A row with the flag is a row of one of those operations, and not the accumulator form (R236). -/
theorem operation_of_rmw {i : Instr} (h : (desc i.opcode).rmw = true) :
    i.operation ∈ rmwOps ∧ i.operand.mode ≠ .acc := by
  rw [Operation.rows_rmw i.operation (i.opcode, i.operand.mode) i.is_operation] at h
  exact of_decide_eq_true h

/-- The operand of a row with the flag is in memory. -/
theorem Operation.rows_rmw_mem (op : Operation) : ∀ p ∈ op.rows, (desc p.1).rmw = true →
    p.2 ∈ [Mode.zp, .zpx, .zpy, .abs, .absx, .absy, .indx, .indy, .ind] := by
  cases op <;> decide

theorem operation_mem {i : Instr} {ops : List Operation} (h : i.IsOneOf ops) : i.operation ∈ ops := by
  obtain ⟨op, hop, his⟩ := h
  exact his.operation ▸ hop

/-- The result of a read-modify-write operation as a number. -/
theorem rmwResult_eq {op : Operation} {m r : Byte} {c : Bool}
    (h : (op ∈ [.inc, .isc] ∧ r = m + 1) ∨
      (op ∈ [.dec, .dcp] ∧ r = m - 1) ∨
      (op ∈ [.asl, .slo] ∧ r = BitVec.ofNat 8 (2 * m.toNat)) ∨
      (op ∈ [.rol, .rla] ∧ r = BitVec.ofNat 8 (2 * m.toNat + if c then 1 else 0)) ∨
      (op ∈ [.lsr, .sre] ∧ r = BitVec.ofNat 8 (m.toNat / 2)) ∨
      (op ∈ [.ror, .rra] ∧ r = BitVec.ofNat 8 (m.toNat / 2 + 128 * if c then 1 else 0))) :
    r = rmwResult op m c := by
  simp only [← shiftLeft_eq, ← shiftRight_eq, ← rotateLeft_eq, ← rotateRight_eq, List.mem_pair] at h
  rcases h with ⟨rfl | rfl, rfl⟩ | ⟨rfl | rfl, rfl⟩ | ⟨rfl | rfl, rfl⟩ | ⟨rfl | rfl, rfl⟩ | ⟨rfl | rfl, rfl⟩ |
    ⟨rfl | rfl, rfl⟩ <;> rfl

/-- A read-modify-write row reads its operand once, writes it back, and writes its result (R266). -/
theorem exec_rmw {i : Instr} (h : (desc i.opcode).rmw = true) (s : State) :
    ∃ (a : Word) (t : State), i.place s = .mem a ∧ exec i s = .next t ∧
      t.bus = .write a (rmwResult i.operation (i.operandByte s) s.flags.c) :: .write a (i.operandByte s) ::
        .read a (i.operandByte s) :: (i.operand.pointerReads s ++ s.bus) := by
  have hop := (operation_of_rmw h).1
  have hsupported : ∀ op ∈ rmwOps, op ∉ unsupportedOps := by decide
  obtain ⟨a, ha⟩ := place_mem s (Operation.rows_rmw_mem _ _ i.is_operation h)
  refine ⟨a, _, ha, exec_of_is i.is_operation (hsupported _ hop) s, ?_⟩
  obtain ⟨d, hbyte, hflags, hwrite⟩ := operandWrite_rmw ha h
  rw [opBody_bus_of_rmw hop, hbyte, hflags, hwrite]

/-- The store operations. -/
def storeOps : List Operation := [.sta, .stx, .sty, .sax]

/-- The byte that a store operation stores. -/
def storedByte (op : Operation) (s : State) : Byte :=
  match op with
  | .sta => s.a
  | .stx => s.x
  | .sty => s.y
  | _ => s.a &&& s.x

theorem opBody_of_store {op : Operation} (h : op ∈ storeOps) (d : Desc) (p : Place) (s : State) :
    opBody op d p s = operandStore d p (storedByte op s) s := by
  cases op
  case sta | stx | sty | sax => rfl
  all_goals exact absurd h (by decide)

/-- The rows of the store operations are in memory and do not have the flag. -/
theorem Operation.rows_store {op : Operation} (h : op ∈ storeOps) : ∀ p ∈ op.rows, (desc p.1).rmw = false ∧
    p.2 ∈ [Mode.zp, .zpx, .zpy, .abs, .absx, .absy, .indx, .indy, .ind] := by
  revert op; decide

/-- The resolver and the charge change no register. -/
theorem storedByte_charge (op : Operation) (i : Instr) (s : State) :
    storedByte op (charge i.opcode (resolve i.operand s)) = storedByte op s := by
  rw [charge_eq]
  cases op <;> rfl

/-- A store writes its byte once (R266, R303 to R305, R433). -/
theorem exec_store {i : Instr} {op : Operation} (h : i.Is op) (hop : op ∈ storeOps) (s : State) :
    ∃ (a : Word) (t : State), i.place s = .mem a ∧ exec i s = .next t ∧
      t.bus = .write a (storedByte op s) :: (i.operand.pointerReads s ++ s.bus) := by
  have hsupported : ∀ op ∈ storeOps, op ∉ unsupportedOps := by decide
  obtain ⟨hrmw, hmode⟩ := Operation.rows_store hop _ h
  obtain ⟨a, ha⟩ := place_mem s hmode
  refine ⟨a, _, ha, exec_of_is h (hsupported _ hop) s, ?_⟩
  rw [opBody_of_store hop, operandStore, hrmw, ha, storedByte_charge]
  simp only [operandWrite, Bool.false_eq_true, if_false, memWrite_bus, charge_bus, resolve_bus]

/-- Settles O24: `exec_rmw` and `exec_store`, with the results as numbers. -/
theorem readModifyWriteOrder : Obligations.ReadModifyWriteOrder := by
  refine ⟨fun i h => ?rows, fun i s r h => ?rmw, fun i s v h => ?store, fun a old v s => ?primitive⟩
  case rows =>
    obtain ⟨hop, hmode⟩ := operation_of_rmw h
    exact ⟨⟨i.operation, hop, i.is_operation⟩, hmode⟩
  case rmw =>
    intro m c hr
    have mem {ops : List Operation} {e : Prop} : i.IsOneOf ops ∧ e → i.operation ∈ ops ∧ e :=
      And.imp_left operation_mem
    have hresult : r = rmwResult i.operation m s.flags.c :=
      rmwResult_eq (hr.imp mem (.imp mem (.imp mem (.imp mem (.imp mem mem)))))
    rw [hresult]
    exact exec_rmw h s
  case store =>
    obtain ⟨h, rfl⟩ | ⟨h, rfl⟩ | ⟨h, rfl⟩ | ⟨h, rfl⟩ := h <;> exact exec_store h (by decide) s
  case primitive =>
    refine ⟨rfl, rfl, fun rmw => ?_⟩
    rw [operandWrite, setA, Flags.setZN_eq]

/-! ### Completion and cost (R264) -/

/-- A branch is relative. -/
theorem Operation.rows_branch {op : Operation} (h : op ∈ branchOps) : ∀ p ∈ op.rows, p.2 = .rel := by
  revert op; decide

/-- A supported row has a base cost (R238). -/
theorem desc_cycles {op : Byte} (h : (desc op).cls ≠ .unsupported) : ∃ c, (desc op).cycles = some c := by
  rw [← Option.isSome_iff_exists]
  revert op; decide

theorem cost_eq {d : Desc} {c : Nat} (h : d.cycles = some c) (crossed : Bool) :
    cost d crossed = c + if d.pagePenalty = true ∧ crossed = true then 1 else 0 := by
  rw [cost, h, Option.getD_some, bit]
  simp only [Bool.and_eq_true]

/-- Settles O13: the body of an operation adds at most a branch's cycles to what the charge leaves. -/
theorem completionAndCost : Obligations.CompletionAndCost := by
  intro i s hsupported crossed
  obtain ⟨c, hc⟩ := desc_cycles hsupported
  obtain ⟨u, extra, hacts, hbody, hextra, hbranch⟩ :=
    opBody_acts i.operation (desc i.opcode) (i.place s) (charge i.opcode (resolve i.operand s))
  obtain ⟨hscratch, howed, hstatus, hcancelled, hnmi, -⟩ := hacts.frame
  rw [charge_eq] at hscratch howed hstatus hcancelled hnmi
  have hexec := (exec_eq_runInstr i hsupported s).trans (congrArg Host.Outcome.next hbody)
  refine ⟨_, c, extra, hexec, hstatus, hcancelled, hnmi, hscratch,
    hc, ?owed, hextra, fun hmode => hbranch fun hop => hmode ?branch⟩
  case owed =>
    simp only [howed, cost_eq hc, Nat.add_assoc]
    rfl
  case branch => exact Operation.rows_branch hop _ i.is_operation

/-! ### The fetch (R260, R261, R263) -/

/-- `s` with `PC` moved on by `n` and the reads `rs` on the bus record, newest first. -/
def State.fetched (s : State) (n : Word) (rs : List BusAccess) : State :=
  { s with pc := s.pc + n, bus := rs ++ s.bus, draws := s.draws + rs.countP BusAccess.isDraw }

theorem fetched_draws (s : State) (n : Word) (rs : List BusAccess) :
    (s.fetched n rs).draws = s.draws + rs.countP BusAccess.isDraw := rfl

theorem countP_isDraw_read (a : Word) (v : Byte) (rs : List BusAccess) :
    (BusAccess.read a v :: rs).countP BusAccess.isDraw = rs.countP BusAccess.isDraw + bit (oracleAddr a) :=
  List.countP_cons

/-- The fetch matters to a later read by the number of its draws only. -/
theorem FetchOnly.peek {s t : State} (h : FetchOnly s t) (hd : t.draws = s.draws) (a : Word) :
    t.peek a = s.peek a := by
  rw [h, hd]
  rfl

theorem nextByte_fetched (s : State) (n : Word) (rs : List BusAccess) :
    (nextByte (s.fetched n rs)).2 =
      s.fetched (n + 1) (.read (s.pc + n) ((s.fetched n rs).peek (s.pc + n)) :: rs) := by
  rw [nextByte_snd, State.fetched, State.fetched, BitVec.add_assoc, countP_isDraw_read, ← Nat.add_assoc]
  rfl

/-- An immediate byte or a branch offset is skipped without a read (R272, R280). -/
theorem skip_fetched (s : State) (n : Word) (rs : List BusAccess) :
    { s.fetched n rs with pc := (s.fetched n rs).pc + 1 } = s.fetched (n + 1) rs := by
  simp only [State.fetched, BitVec.add_assoc]

section
variable {s : State} {b0 b1 b2 : Byte}
variable (h0 : b0 = s.peek s.pc) (h1 : b1 = (recordRead s.pc b0 s).peek (s.pc + 1))
variable (h2 : b2 = (recordRead (s.pc + 1) b1 (recordRead s.pc b0 s)).peek (s.pc + 2))

include h0 in
theorem nextByte_first : (nextByte s).2 = s.fetched 1 [.read s.pc b0] := by
  rw [nextByte_snd, ← h0, State.fetched, countP_isDraw_read, List.countP_nil, Nat.zero_add]
  rfl

include h1 in
theorem peek_second : (s.fetched 1 [.read s.pc b0]).peek (s.pc + 1) = b1 := by
  rw [h1]
  refine FetchOnly.peek ?only ?draws _
  case only => exact rfl
  case draws => simp only [fetched_draws, recordRead_draws, countP_isDraw_read, List.countP_nil, Nat.zero_add]

include h1 in
theorem nextByte_second :
    (nextByte (s.fetched 1 [.read s.pc b0])).2 = s.fetched 2 [.read (s.pc + 1) b1, .read s.pc b0] := by
  rw [nextByte_fetched, peek_second h1]
  rfl

include h2 in
theorem peek_third : (s.fetched 2 [.read (s.pc + 1) b1, .read s.pc b0]).peek (s.pc + 2) = b2 := by
  rw [h2]
  refine FetchOnly.peek ?only ?draws _
  case only => exact rfl
  case draws =>
    simp only [fetched_draws, recordRead_draws, countP_isDraw_read, List.countP_nil, Nat.zero_add, Nat.add_assoc]

include h2 in
theorem nextByte_third : (nextByte (s.fetched 2 [.read (s.pc + 1) b1, .read s.pc b0])).2 =
    s.fetched 3 [.read (s.pc + 2) b2, .read (s.pc + 1) b1, .read s.pc b0] := by
  rw [nextByte_fetched, peek_third h2]
  rfl

include h0 h1 h2 in
/-- The bytes that three reads from PC on find decode to the fetched instruction (R260). -/
theorem fetchInstr_eq : fetchInstr s = decode3 b0 b1 b2 := by
  calc fetchInstr s
    _ = decode3 (s.peek s.pc) ((nextByte s).2.peek (s.pc + 1))
          ((nextByte (nextByte s).2).2.peek (nextByte (nextByte s).2).2.pc) := rfl
    _ = decode3 b0 b1 b2 := by
      rw [← h0, nextByte_first h0, peek_second h1, nextByte_second h1]
      exact congrArg _ (peek_third h2)

end

/-- Settles O7: the fetch by the class and the mode of the row. -/
theorem stepRunsTheDecodedInstruction : Obligations.StepRunsTheDecodedInstruction := by
  intro s i b0 b1 b2 rest hactive hquiet h0 h1 h2 hdecode reads consumed
  obtain ⟨hi, -⟩ := decode_three hdecode
  have hafter : afterFetch (desc i.opcode) s = s.fetched consumed reads := by
    simp only [reads, consumed, Instr.operand_mode, Instr.cls, afterFetch]
    rw [nextByte_first h0]
    cases (desc i.opcode).cls
    case unsupported => rfl
    case official | unofficial =>
      cases (desc i.opcode).mode
      case imp | acc => rfl
      case imm | rel => exact skip_fetched s 1 _
      case zp | zpx | zpy | indx | indy => exact nextByte_second h1
      case abs | absx | absy | ind => exact (congrArg _ (congrArg _ (nextByte_second h1))).trans (nextByte_third h2)
  rw [step_fetch hactive hquiet, fetchInstr_eq h0 h1 h2, ← hi, hafter]
  rfl

end Sys2Proof.Machine

/-!
PROOFS. Loads, stores and the register instructions (spec/41_load_store_transfer.md R300 to R311;
spec/42_alu.md R346 to R349; spec/44_unofficial.md R432, R433).
-/
namespace Sys2Proof.Machine

/-! ### Writing a register with its flags -/

theorem setA_eq (v : Byte) (s : State) : setA v s = { s with a := v, flags := s.flags.zn v } := by
  rw [setA, Flags.setZN_eq]

theorem setX_eq (v : Byte) (s : State) : setX v s = { s with x := v, flags := s.flags.zn v } := by
  rw [setX, Flags.setZN_eq]

theorem setY_eq (v : Byte) (s : State) : setY v s = { s with y := v, flags := s.flags.zn v } := by
  rw [setY, Flags.setZN_eq]

/-- LAX sets the flags twice from one byte (R432). -/
theorem setX_setA_eq (v : Byte) (s : State) :
    setX v (setA v s) = { s with a := v, x := v, flags := s.flags.zn v } := by
  rw [setX_eq, setA_eq]
  rfl

/-! ### Loads -/

/-- The load operations. -/
def loadOps : List Operation := [.lda, .ldx, .ldy, .lax]

/-- What a load operation does with the byte `m` it read. -/
def loaded (op : Operation) (m : Byte) (s : State) : State :=
  match op with
  | .lda => setA m s
  | .ldx => setX m s
  | .ldy => setY m s
  | _ => setX m (setA m s)

theorem opBody_of_load {op : Operation} (h : op ∈ loadOps) (d : Desc) (p : Place) (s : State) :
    opBody op d p s = loaded op (operandRead p s).1 (operandRead p s).2 := by
  cases op
  case lda | ldx | ldy | lax => rfl
  all_goals exact absurd h (by decide)

/-- A load row reads its operand byte and ends with it loaded. -/
theorem exec_load {i : Instr} {op : Operation} (h : i.Is op) (hop : op ∈ loadOps) (s : State) :
    ∃ t, exec i s = .next t ∧ EndsAs i s t (loaded op (i.operandByte s) s) := by
  have hsupported : ∀ op ∈ loadOps, op ∉ unsupportedOps := by decide
  refine ⟨_, exec_of_is h (hsupported op hop) s, ?_⟩
  obtain ⟨d, hread⟩ := operandRead_charge i s
  rw [opBody_of_load hop, hread, EndsAs]
  cases op
  case lda | ldx | ldy | lax => rfl
  all_goals exact absurd hop (by decide)

/-- Settles O14: `exec_load` for each of the four, with the flags as numbers. -/
theorem loadsWriteTheirRegister : Obligations.LoadsWriteTheirRegister := by
  intro i s m
  refine ⟨fun h => ?lda, fun h => ?ldx, fun h => ?ldy, fun h => ?lax⟩
  case lda => rw [← setA_eq]; exact exec_load h (by decide) s
  case ldx => rw [← setX_eq]; exact exec_load h (by decide) s
  case ldy => rw [← setY_eq]; exact exec_load h (by decide) s
  case lax => rw [← setX_setA_eq]; exact exec_load h (by decide) s

/-! ### Stores -/

/-- Away from the oracles a read finds after an instruction what it finds in the state that its effect leaves. -/
theorem EndsAs.peek {i : Instr} {s t u : State} (h : EndsAs i s t u) {b : Word} (hb : oracleAddr b = false) :
    t.peek b = u.peek b := by
  refine peek_congr_memory ?_ ?_ ?_ ?_ hb <;> rw [h]

/-- A store row ends as one bus write of its byte, whatever the cost, the scratch and the pointer reads before it. -/
theorem exec_store_endsAs {i : Instr} {op : Operation} (h : i.Is op) (hop : op ∈ storeOps) (s : State) :
    ∃ (a : Word) (t : State), i.place s = .mem a ∧ exec i s = .next t ∧
      EndsAs i s t (memWrite a (storedByte op s) s) ∧
      t.bus = .write a (storedByte op s) :: (i.operand.pointerReads s ++ s.bus) := by
  obtain ⟨a, t, ha, hexec, hbus⟩ := exec_store h hop s
  refine ⟨a, t, ha, hexec, ?_, hbus⟩
  have hsupported : ∀ op ∈ storeOps, op ∉ unsupportedOps := by decide
  obtain ⟨hrmw, -⟩ := Operation.rows_store hop _ h
  rw [exec_of_is h (hsupported op hop) s] at hexec
  injection hexec with ht
  rw [← ht, opBody_of_store hop, operandStore, hrmw, storedByte_charge, charge_eq, ha]
  simp only [operandWrite, Bool.false_eq_true, if_false, EndsAs, memWrite_counters, memWrite_owed, ha]

/-- Settles O15: the write by `exec_store_endsAs`, what is read after it by the laws of a bus write. -/
theorem storesWriteOneByte : Obligations.StoresWriteOneByte := by
  intro i s v hmem hstore
  have hv : ∃ op ∈ storeOps, i.Is op ∧ v = storedByte op s := by
    obtain h | h | h | h := hstore <;> exact ⟨_, by decide, h⟩
  obtain ⟨op, hop, his, rfl⟩ := hv
  obtain ⟨a, t, hplace, hexec, hends, hbus⟩ := exec_store_endsAs his hop s
  refine ⟨a, t, hplace, hexec, hends, hbus, fun b hb hother hhigh => ?frame, fun ha b hsame => ?stored⟩
  case frame => exact (hends.peek hb).trans (memWrite_sameBytesBut hmem.writable a _ b hb hother hhigh)
  case stored => exact (hends.peek (oracleAddr_of_writable ha hsame)).trans (memWrite_peek hmem.writable _ ha hsame)

/-! ### Register instructions -/

/-- The operations that write a register from registers. -/
def registerOps : List Operation := [.txa, .tya, .tax, .tsx, .inx, .dex, .tay, .iny, .dey, .txs]

/-- They have no operand. -/
theorem Operation.rows_register {op : Operation} (h : op ∈ registerOps) : ∀ p ∈ op.rows, p.2 = .imp := by
  revert op; decide

/-- Their body does not depend on the cost, the scratch and the bus record, and leaves them. -/
theorem exec_register {i : Instr} {op : Operation} (h : i.Is op) (hop : op ∈ registerOps) (s : State) :
    ∃ t, exec i s = .next t ∧ EndsAs i s t (opBody op (desc i.opcode) (i.place s) s) ∧ t.bus = s.bus := by
  have hsupported : ∀ op ∈ registerOps, op ∉ unsupportedOps := by decide
  have himp : i.operand = .imp := operand_imp (Operation.rows_register hop _ h)
  have hbus : (resolve i.operand s).state.bus = s.bus := by rw [himp]; rfl
  refine ⟨_, exec_of_is h (hsupported op hop) s, ?_⟩
  rw [EndsAs, charge_eq, hbus]
  cases op
  case txa | tya | tax | tsx | tay | txs => exact ⟨rfl, rfl⟩
  case inx | iny | dex | dey => exact ⟨rfl, rfl⟩
  all_goals exact absurd hop (by decide)

/-- Settles O16: `exec_register` for each of the ten, with the flags as numbers. -/
theorem registerInstructions : Obligations.RegisterInstructions := by
  intro i s
  refine ⟨fun v h => ?a, fun v h => ?x, fun v h => ?y, fun h => exec_register h (by decide) s⟩
  case a =>
    rw [← setA_eq]
    obtain ⟨h, rfl⟩ | ⟨h, rfl⟩ := h <;> exact exec_register h (by decide) s
  case x =>
    rw [← setX_eq]
    obtain ⟨h, rfl⟩ | ⟨h, rfl⟩ | ⟨h, rfl⟩ | ⟨h, rfl⟩ := h <;> exact exec_register h (by decide) s
  case y =>
    rw [← setY_eq]
    obtain ⟨h, rfl⟩ | ⟨h, rfl⟩ | ⟨h, rfl⟩ := h <;> exact exec_register h (by decide) s

end Sys2Proof.Machine

/-!
PROOFS. The ALU instructions (spec/42_alu.md R330 to R345, R350 to R353; spec/44_unofficial.md R434): the ones that
read their operand, the ones that store a function of it, and the accumulator forms.
-/
namespace Sys2Proof.Machine

/-! ### Effects that do not look at the counters -/

/-- `f` neither reads nor writes the cost, the scratch, the bus record and the number of draws: what every instruction
adds before its operation's own effect. -/
def KeepsCounters (f : State → State) : Prop :=
  ∀ (s : State) (o : Nat) (sc : Option Scratch) (b : List BusAccess) (d : Nat),
    f { s with owed := o, scratch := sc, bus := b, draws := d } =
      { f s with owed := o, scratch := sc, bus := b, draws := d }

theorem KeepsCounters.owed {f : State → State} (h : KeepsCounters f) (s : State) : (f s).owed = s.owed :=
  (congrArg State.owed (h s s.owed s.scratch s.bus s.draws) :)

theorem addC_keepsCounters (m : Byte) : KeepsCounters (addC m) := fun _ _ _ _ _ => rfl

theorem subC_keepsCounters (m : Byte) : KeepsCounters (subC m) := addC_keepsCounters _

/-- A row whose body is `OperandRead` and an effect of the byte read ends as that effect of the operand byte, whatever
the cost, the scratch and the reads before it. -/
theorem exec_read_endsAs {i : Instr} {op : Operation} (h : i.Is op) (hsupported : op ∉ unsupportedOps)
    {f : Byte → State → State}
    (hbody : ∀ d p s, opBody op d p s = f (operandRead p s).1 (operandRead p s).2)
    (hf : ∀ m, KeepsCounters (f m)) (s : State) :
    ∃ t, exec i s = .next t ∧ EndsAs i s t (f (i.operandByte s) s) := by
  refine ⟨_, exec_of_is h hsupported s, ?_⟩
  obtain ⟨d, hread⟩ := operandRead_charge i s
  rw [hbody, hread, EndsAs, hf, (hf _).owed]

/-! ### ADC and SBC (R335, R336) -/

theorem exec_adc {i : Instr} (h : i.Is .adc) (s : State) :
    ∃ t, exec i s = .next t ∧ EndsAs i s t (addC (i.operandByte s) s) :=
  exec_read_endsAs h (by decide) (fun _ _ _ => rfl) addC_keepsCounters s

theorem exec_sbc {i : Instr} (h : i.Is .sbc) (s : State) :
    ∃ t, exec i s = .next t ∧ EndsAs i s t (subC (i.operandByte s) s) :=
  exec_read_endsAs h (by decide) (fun _ _ _ => rfl) subC_keepsCounters s

/-- Settles O17: `exec_adc`, with `AddC` in integers. -/
theorem adcAddsWithCarry : Obligations.AdcAddsWithCarry := by
  intro i s h
  have hadc := exec_adc h s
  rw [addC_eq] at hadc
  exact hadc

/-- The borrow before a subtraction. -/
theorem one_sub_bit (c : Bool) : 1 - bit c = if c then 0 else 1 := by cases c <;> rfl

/-- Settles O18: `exec_sbc`, with `SubC` in integers. -/
theorem sbcSubtractsWithBorrow : Obligations.SbcSubtractsWithBorrow := by
  intro i s h
  have hsbc := exec_sbc h s
  rw [subC_eq, one_sub_bit] at hsbc
  exact hsbc

theorem EndsAs.a {i : Instr} {s t u : State} (h : EndsAs i s t u) : t.a = u.a := by rw [h]

theorem EndsAs.flags {i : Instr} {s t u : State} (h : EndsAs i s t u) : t.flags = u.flags := by rw [h]

/-- Settles O19: `SubC` of a byte is `AddC` of its complement, and `subC_eq` has the difference. -/
theorem sbcIsAdcOfTheComplement : Obligations.SbcIsAdcOfTheComplement := by
  intro m s
  have hrow : (0xEB, Mode.imm) ∈ Operation.sbc.rows := by decide
  obtain ⟨t, ht, hsbc⟩ := exec_sbc (i := .sbcImm m) List.mem_cons_self s
  obtain ⟨u, hu, hdup⟩ := exec_sbc (i := .sbcImmEB m) hrow s
  obtain ⟨w, hw, hadc⟩ := exec_adc (i := .adcImm (~~~m)) List.mem_cons_self s
  have hcomplement : subC m s = addC (~~~m) s := rfl
  have hadc : EndsAs _ s w (subC m s) := hcomplement ▸ hadc
  refine ⟨t, u, w, ht, hu, hw, hsbc.a.trans hadc.a.symm, hsbc.flags.trans hadc.flags.symm,
    hdup.a.trans hadc.a.symm, hdup.flags.trans hadc.flags.symm, ?difference, ?carry⟩
  case difference =>
    rw [hsbc.a, subC_eq, one_sub_bit]
    cases s.flags.c <;> rfl
  case carry =>
    rw [hsbc.flags, subC_eq, one_sub_bit]
    exact decide_eq_true_iff

/-! ### AND, ORA, EOR and BIT (R337 to R340) -/

/-- A row that combines its operand byte with A. -/
theorem exec_combine {i : Instr} {op : Operation} (h : i.Is op) (hsupported : op ∉ unsupportedOps)
    {g : Byte → Byte → Byte}
    (hbody : ∀ d p s, opBody op d p s = setA (g (operandRead p s).2.a (operandRead p s).1) (operandRead p s).2)
    (s : State) : ∃ t, exec i s = .next t ∧ EndsAs i s t (setA (g s.a (i.operandByte s)) s) :=
  exec_read_endsAs (f := fun m s => setA (g s.a m) s) h hsupported hbody (fun _ _ _ _ _ _ => rfl) s

/-- What BIT does with the byte `m`: Z of its conjunction with A, V and N of its own bits 6 and 7. -/
def bitTest (m : Byte) (s : State) : State :=
  { s with flags := { s.flags with
    z := decide (s.a &&& m = 0)
    v := decide (64 ≤ m.toNat % 128)
    n := decide (128 ≤ m.toNat) } }

theorem bitTest_keepsCounters (m : Byte) : KeepsCounters (bitTest m) := fun _ _ _ _ _ => rfl

theorem opBit_eq (d : Desc) (p : Place) (s : State) :
    opBit d p s = bitTest (operandRead p s).1 (operandRead p s).2 := by
  rw [bitTest, ← Byte.bit6, ← Byte.bit7]
  rfl

/-- Settles O20: `exec_combine` for the three, `bitTest` for BIT. -/
theorem logicAndBit : Obligations.LogicAndBit := by
  intro i s m
  refine ⟨fun r h => ?logic, fun h => exec_read_endsAs h (by decide) opBit_eq bitTest_keepsCounters s⟩
  rw [← setA_eq]
  obtain ⟨h, rfl⟩ | ⟨h, rfl⟩ | ⟨h, rfl⟩ := h
  case inl => exact exec_combine (g := (· &&& ·)) h (by decide) (fun _ _ _ => rfl) s
  case inr.inl => exact exec_combine (g := (· ||| ·)) h (by decide) (fun _ _ _ => rfl) s
  case inr.inr => exact exec_combine (g := (· ^^^ ·)) h (by decide) (fun _ _ _ => rfl) s

/-! ### CMP, CPX and CPY (R341 to R343) -/

/-- The compare operations. -/
def compareOps : List Operation := [.cmp, .cpx, .cpy]

/-- The register that a compare operation compares. -/
def comparedByte (op : Operation) (s : State) : Byte :=
  match op with
  | .cmp => s.a
  | .cpx => s.x
  | _ => s.y

theorem opBody_of_compare {op : Operation} (h : op ∈ compareOps) (d : Desc) (p : Place) (s : State) :
    let q := operandRead p s
    opBody op d p s = compare (comparedByte op q.2) q.1 q.2 := by
  cases op
  case cmp | cpx | cpy => rfl
  all_goals exact absurd h (by decide)

theorem compare_keepsCounters (op : Operation) (m : Byte) :
    KeepsCounters fun s => compare (comparedByte op s) m s := by
  intro s o sc b d
  cases op <;> rfl

/-- Settles O21: `Compare` of the row's register, in numbers. -/
theorem comparesSetCarryZeroNegative : Obligations.ComparesSetCarryZeroNegative := by
  intro i s r h m
  have hr : ∃ op ∈ compareOps, i.Is op ∧ r = comparedByte op s := by
    obtain h | h | h := h <;> exact ⟨_, by decide, h⟩
  obtain ⟨op, hop, his, rfl⟩ := hr
  have hsupported : ∀ op ∈ compareOps, op ∉ unsupportedOps := by decide
  rw [← compare_eq]
  exact exec_read_endsAs his (hsupported op hop) (opBody_of_compare hop) (compare_keepsCounters op) s

/-! ### Rows that store their result (R266) -/

/-- A row of a read-modify-write operation that is not its accumulator form has the flag (R236). -/
theorem rmw_of_is {i : Instr} {op : Operation} (h : i.Is op) (hop : op ∈ rmwOps) (hmode : i.operand.mode ≠ .acc) :
    (desc i.opcode).rmw = true :=
  (Operation.rows_rmw op _ h).trans (decide_eq_true ⟨hop, hmode⟩)

/-- A read-modify-write row in memory: the two writes at the resolved address, then what the operation does with the
operand byte and the result (`finish`), whatever the cost, the scratch and the reads before. -/
theorem exec_rmw_endsAs {i : Instr} {op : Operation} (h : i.Is op) (hop : op ∈ rmwOps)
    (hmode : i.operand.mode ≠ .acc) {finish : Byte → Byte → State → State}
    (hbody : ∀ d p s,
      let q := operandRead p s
      let r := rmwResult op q.1 q.2.flags.c
      opBody op d p s = finish q.1 r (operandWrite d.rmw p q.1 r q.2))
    (hfinish : ∀ m r, KeepsCounters (finish m r)) (s : State) :
    let m := i.operandByte s
    let r := rmwResult op m s.flags.c
    ∃ (a : Word) (t : State), i.place s = .mem a ∧ exec i s = .next t ∧
      EndsAs i s t (finish m r (memWrite a r (memWrite a m s))) ∧
      t.bus = .write a r :: .write a m :: .read a m :: (i.operand.pointerReads s ++ s.bus) := by
  intro m r
  have hrmw := rmw_of_is h hop hmode
  have hsupported : ∀ op ∈ rmwOps, op ∉ unsupportedOps := by decide
  obtain ⟨a, ha⟩ := place_mem s (Operation.rows_rmw_mem op _ h hrmw)
  obtain ⟨d, hbyte, hflags, hwrite⟩ := operandWrite_rmw ha hrmw
  refine ⟨a, _, ha, exec_of_is h (hsupported op hop) s, ?_⟩
  rw [hbody, hbyte, hflags, hwrite, hfinish]
  refine ⟨?_, rfl⟩
  rw [EndsAs, (hfinish m r).owed, memWrite_owed, memWrite_owed]

/-- What reads find after a row that ends with the two writes at `a` and changes no memory after them. -/
theorem EndsAs.stored {i : Instr} {s t u : State} {a : Word} {m r : Byte} (h : EndsAs i s t u) (hmem : s.MemoryOk)
    (hu : ∀ b, u.peek b = (memWrite a r (memWrite a m s)).peek b) :
    SameBytesBut a s t ∧
      (a.toNat < 0x2000 ∨ (0x6000 ≤ a.toNat ∧ a.toNat < 0x8000) → ∀ b, sameByte a b → t.peek b = r) := by
  obtain ⟨hother, hstored⟩ := memWrite_twice hmem.writable a m r
  refine ⟨fun b hb hne hhigh => ?other, fun ha b hb => ?stored⟩
  case other => exact ((h.peek hb).trans (hu b)).trans (hother b hb hne hhigh)
  case stored => exact ((h.peek (oracleAddr_of_writable ha hb)).trans (hu b)).trans (hstored ha b hb)

/-! ### INC and DEC (R344, R345) -/

theorem setZN_eq (v : Byte) (s : State) : setZN v s = { s with flags := s.flags.zn v } := by
  rw [setZN, Flags.setZN_eq]

theorem setZN_keepsCounters (v : Byte) : KeepsCounters (setZN v) := fun _ _ _ _ _ => rfl

theorem opBody_of_incDec {op : Operation} (h : op ∈ [Operation.inc, .dec]) (d : Desc) (p : Place) (s : State) :
    let q := operandRead p s
    let r := rmwResult op q.1 q.2.flags.c
    opBody op d p s = setZN r (operandWrite d.rmw p q.1 r q.2) := by
  cases op
  case inc | dec => rfl
  all_goals exact absurd h (by decide)

theorem Operation.rows_incDec {op : Operation} (h : op ∈ [Operation.inc, .dec]) :
    op ∈ rmwOps ∧ ∀ p ∈ op.rows, p.2 ≠ .acc := by
  revert op; decide

/-- Settles O22: the two writes by `exec_rmw_endsAs`, what is read after them by `EndsAs.stored`. -/
theorem incDecMemory : Obligations.IncDecMemory := by
  intro i s r hmem m h
  have hop : ∃ op ∈ [Operation.inc, .dec], i.Is op ∧ r = rmwResult op m s.flags.c := by
    obtain h | h := h <;> exact ⟨_, by decide, h⟩
  obtain ⟨op, hop, his, rfl⟩ := hop
  obtain ⟨hrmw, hmode⟩ := Operation.rows_incDec hop
  obtain ⟨a, t, hplace, hexec, hends, hbus⟩ := exec_rmw_endsAs his hrmw (hmode _ his)
    (finish := fun _ r => setZN r) (opBody_of_incDec hop) (fun _ => setZN_keepsCounters) s
  rw [setZN_eq, memWrite_flags, memWrite_flags] at hends
  exact ⟨a, t, hplace, hexec, hends, hbus, hends.stored hmem fun _ => rfl⟩

/-! ### ASL, LSR, ROL and ROR (R350 to R353) -/

/-- The shift and rotate operations. -/
def shiftOps : List Operation := [.asl, .lsr, .rol, .ror]

/-- The bit that a shift or rotate moves out: bit 7 to the left, bit 0 to the right. -/
def shiftedOut (op : Operation) (m : Byte) : Bool :=
  match op with
  | .asl | .rol => m.getLsbD 7
  | _ => m.getLsbD 0

/-- What a shift or rotate sets after its result is stored. -/
def setShiftFlags (out : Bool) (r : Byte) (s : State) : State := setZN r (setC out s)

theorem setShiftFlags_eq (out : Bool) (r : Byte) (s : State) :
    setShiftFlags out r s = { s with flags := { s.flags.zn r with c := out } } := by
  rw [setShiftFlags, setZN_eq]
  rfl

theorem setShiftFlags_keepsCounters (out : Bool) (r : Byte) : KeepsCounters (setShiftFlags out r) :=
  fun _ _ _ _ _ => rfl

theorem opBody_of_shift {op : Operation} (h : op ∈ shiftOps) (d : Desc) (p : Place) (s : State) :
    let q := operandRead p s
    let r := rmwResult op q.1 q.2.flags.c
    opBody op d p s = setShiftFlags (shiftedOut op q.1) r (operandWrite d.rmw p q.1 r q.2) := by
  cases op
  case asl | lsr | rol | ror => rfl
  all_goals exact absurd h (by decide)

/-- The operation is known by its result and the bit moved out, both given as numbers. -/
theorem shiftOp_of_result {m r : Byte} {c out : Bool} {P : Operation → Prop}
    (h : (P .asl ∧ r = BitVec.ofNat 8 (2 * m.toNat) ∧ out = decide (128 ≤ m.toNat)) ∨
      (P .lsr ∧ r = BitVec.ofNat 8 (m.toNat / 2) ∧ out = decide (m.toNat % 2 = 1)) ∨
      (P .rol ∧ r = BitVec.ofNat 8 (2 * m.toNat + if c then 1 else 0) ∧ out = decide (128 ≤ m.toNat)) ∨
      (P .ror ∧ r = BitVec.ofNat 8 (m.toNat / 2 + 128 * if c then 1 else 0) ∧ out = decide (m.toNat % 2 = 1))) :
    ∃ op ∈ shiftOps, P op ∧ r = rmwResult op m c ∧ out = shiftedOut op m := by
  simp only [← shiftLeft_eq, ← shiftRight_eq, ← rotateLeft_eq, ← rotateRight_eq, ← Byte.bit7, ← Byte.bit0] at h
  obtain h | h | h | h := h <;> exact ⟨_, by decide, h⟩

/-- An operand of mode `acc` is the accumulator. -/
theorem operand_acc {o : Operand} (h : o.mode = .acc) : o = .acc := by
  cases o
  case acc => rfl
  all_goals cases h

/-- The operand byte in mode `acc` is A. -/
theorem operandByte_acc {i : Instr} (hmode : i.operand.mode = .acc) (s : State) : i.operandByte s = s.a := by
  rw [Instr.operandByte, Instr.place, operand_acc hmode]
  rfl

/-- The accumulator form of a shift or rotate: the result goes to A, with no bus access. -/
theorem exec_shift_acc {i : Instr} {op : Operation} (h : i.Is op) (hop : op ∈ shiftOps)
    (hmode : i.operand.mode = .acc) (s : State) :
    let m := i.operandByte s
    let r := rmwResult op m s.flags.c
    ∃ t, exec i s = .next t ∧
      EndsAs i s t { s with a := r, flags := { s.flags.zn r with c := shiftedOut op m } } ∧ t.bus = s.bus := by
  have hsupported : ∀ op ∈ shiftOps, op ∉ unsupportedOps := by decide
  have hplace : i.place s = .acc := by rw [Instr.place, operand_acc hmode]; rfl
  have hbus : (resolve i.operand s).state.bus = s.bus := by rw [operand_acc hmode]; rfl
  refine ⟨_, exec_of_is h (hsupported op hop) s, ?_⟩
  rw [opBody_of_shift hop, setShiftFlags_eq, EndsAs, charge_eq, hbus, hplace, operandByte_acc hmode]
  exact ⟨rfl, rfl⟩

/-- Settles O23: the accumulator form by `exec_shift_acc`, the forms in memory by `exec_rmw_endsAs`. -/
theorem shiftsAndRotates : Obligations.ShiftsAndRotates := by
  intro i s r out hmem m c h f
  obtain ⟨op, hop, his, rfl, rfl⟩ := shiftOp_of_result (P := i.Is) h
  refine ⟨fun hmode => ⟨operandByte_acc hmode s, exec_shift_acc his hop hmode s⟩, fun hmode => ?mem⟩
  have hrmw : ∀ op ∈ shiftOps, op ∈ rmwOps := by decide
  obtain ⟨a, t, hplace, hexec, hends, hbus⟩ := exec_rmw_endsAs his (hrmw op hop) hmode
    (finish := fun m => setShiftFlags (shiftedOut op m)) (opBody_of_shift hop)
    (fun _ => setShiftFlags_keepsCounters _) s
  rw [setShiftFlags_eq, memWrite_flags, memWrite_flags] at hends
  exact ⟨a, t, hplace, hexec, hends, hbus, hends.stored hmem fun _ => rfl⟩

end Sys2Proof.Machine

/-!
PROOFS. Branches, calls and returns, BRK, the stack and flag instructions and NOP
(spec/43_control_stack_flags.md R380 to R388, R390 to R405; spec/44_unofficial.md R431). Their operands are found
without a pointer read, and their operations do not look at the cost and the scratch: `exec` of a row is the operation
on the state before it, charged.
-/
namespace Sys2Proof.Machine

/-! ### Effects under the charge (R264) -/

/-- `s` with `k` more cycles and the scratch `sc`. -/
def State.charged (s : State) (k : Nat) (sc : Option Scratch) : State := { s with owed := s.owed + k, scratch := sc }

/-- `f` neither looks at the cost and the scratch nor changes them, but for cycles that it adds. -/
def IgnoresCharge (f : State → State) : Prop := ∀ (s : State) (k : Nat) (sc : Option Scratch),
  f (s.charged k sc) = (f s).charged k sc

theorem operandRead_charged (p : Place) (s : State) (k : Nat) (sc : Option Scratch) :
    operandRead p (s.charged k sc) = ((operandRead p s).1, (operandRead p s).2.charged k sc) := by
  cases p <;> rfl

theorem push_charged (v : Byte) : IgnoresCharge (push v) := by
  intro s k sc
  rw [push_eq, push_eq]
  rfl

theorem branch_charged (cond : Flags → Bool) (d : Desc) (p : Place) : IgnoresCharge (branch cond d p) := by
  intro s k sc
  simp only [branch, operandRead_charged]
  cases h : cond (operandRead p s).2.flags
  case false =>
    rw [if_neg (by simpa [State.charged] using h), if_neg (by simp)]
  case true =>
    rw [if_pos (by simpa [State.charged] using h), if_pos (by rfl)]
    simp only [State.charged, Nat.add_right_comm _ k]

/-- A read of PRG-ROM, as of the IRQ vector (R475), is no draw: it finds after `NextByte` what it found before. -/
theorem peek_nextByte {a : Word} (h : 0x8000 ≤ a.toNat) (s : State) : (nextByte s).2.peek a = s.peek a :=
  peek_congr_memory (s := s) (t := (nextByte s).2) rfl rfl rfl rfl (oracleAddr_of_high h)

/-- BRK (R393): the padding byte is read, then the entry through the IRQ vector. -/
theorem opBrk_eq (d : Desc) (p : Place) (s : State) : opBrk d p s = { s with
    pc := (s.peek 0xFFFF).pair (s.peek 0xFFFE)
    sp := s.sp - 3
    flags := { s.flags with i := s.flags.i || Config.brkSetsI }
    ram := entryRam s.sp (s.pc + 1) (s.flags.pack true) s.ram
    bus := [.read 0xFFFF (s.peek 0xFFFF), .read 0xFFFE (s.peek 0xFFFE),
      .write (stackAddr (s.sp - 2)) (s.flags.pack true), .write (stackAddr (s.sp - 1)) (s.pc + 1).lo,
      .write (stackAddr s.sp) (s.pc + 1).hi, .read s.pc (s.peek s.pc)] ++ s.bus
    draws := s.draws + bit (oracleAddr s.pc) } := by
  have hlow : (nextByte s).2.peek irqVector = s.peek 0xFFFE := peek_nextByte (by decide) s
  have hhigh : (nextByte s).2.peek (irqVector + 1) = s.peek 0xFFFF := peek_nextByte (by decide) s
  simp only [opBrk]
  rw [takeException_eq (by decide) (by decide), hlow, hhigh]
  rfl

/-- Whether a branch operation branches (R381 to R388; the last case is BEQ). -/
def branchTaken (op : Operation) (f : Flags) : Bool :=
  match op with
  | .bpl => !f.n
  | .bmi => f.n
  | .bvc => !f.v
  | .bvs => f.v
  | .bcc => !f.c
  | .bcs => f.c
  | .bne => !f.z
  | _ => f.z

theorem opBody_of_branch {op : Operation} (h : op ∈ branchOps) : opBody op = branch (branchTaken op) := by
  cases op
  case bpl | bmi | bvc | bvs | bcc | bcs | bne | beq => rfl
  all_goals exact absurd h (by decide)

/-- The operations of this part: no row of theirs has a pointer. -/
def directOps : List Operation := branchOps ++ ([.jsr, .rts, .rti, .brk, .pha, .php, .pla, .plp,
  .clc, .sec, .cli, .sei, .cld, .sed, .clv, .nop] : List Operation)

theorem opBody_charged {op : Operation} (hop : op ∈ directOps) (d : Desc) (p : Place) :
    IgnoresCharge (opBody op d p) := by
  cases op
  case bpl | bmi | bvc | bvs | bcc | bcs | bne | beq =>
    rw [opBody_of_branch (by decide)]
    exact branch_charged _ d p
  case pha => exact fun s => push_charged s.a s
  case php => exact fun s => push_charged (s.flags.pack true) s
  case jsr =>
    intro s k sc
    simp only [opBody, opJsr, push16_eq]
    rfl
  case rts | rti | pla | plp => exact fun _ _ _ => rfl
  case brk =>
    intro s k sc
    simp only [opBody, opBrk_eq]
    rfl
  case clc | sec | cli | sei | cld | sed | clv | nop => exact fun _ _ _ => rfl
  all_goals exact absurd hop (by decide)

theorem Operation.rows_direct {op : Operation} (h : op ∈ directOps) :
    op ∉ unsupportedOps ∧ ∀ p ∈ op.rows, p.2 ∉ [Mode.indx, .indy, .ind] := by
  revert op; decide

/-- A mode without a pointer resolves without a bus access (R269 to R277, R280). -/
theorem resolve_direct {o : Operand} (h : o.mode ∉ [Mode.indx, .indy, .ind]) (s : State) :
    (resolve o s).state = s := by
  cases o
  case indx | indy | ind => exact absurd (by simp [Operand.mode]) h
  all_goals rfl

/-- A row of one of the operations ends as its body on the state before it. -/
theorem exec_direct {i : Instr} {op : Operation} (h : i.Is op) (hop : op ∈ directOps) {s u : State}
    (hbody : opBody op (desc i.opcode) (i.place s) s = u) :
    ∃ t, exec i s = .next t ∧ EndsAs i s t u ∧ t.bus = u.bus ∧ t.draws = u.draws := by
  obtain ⟨hsupported, hmode⟩ := Operation.rows_direct hop
  have hcharge : charge i.opcode (resolve i.operand s) =
      s.charged (cost (desc i.opcode) (resolve i.operand s).crossed)
        (some ⟨i.opcode, desc i.opcode, (i.place s).ea, (resolve i.operand s).crossed⟩) := by
    rw [charge_eq, resolve_direct (hmode _ h)]
    rfl
  refine ⟨_, exec_of_is h hsupported s, ?_⟩
  rw [hcharge, opBody_charged hop, hbody]
  exact ⟨rfl, rfl, rfl⟩

/-! ### Flag instructions and NOP (R398 to R405, R431) -/

/-- Settles O35: the body of each of the seven sets its flag, that of NOP does nothing. -/
theorem flagInstructionsAndNops : Obligations.FlagInstructionsAndNops := by
  refine fun i s => ⟨fun f h => ?flag, fun h => exec_direct h (by decide) rfl⟩
  have hflag : ∃ t, exec i s = .next t ∧ EndsAs i s t { s with flags := f } ∧ t.bus = s.bus ∧ t.draws = s.draws := by
    obtain ⟨rfl, rfl⟩ | ⟨rfl, rfl⟩ | ⟨rfl, rfl⟩ | ⟨rfl, rfl⟩ | ⟨rfl, rfl⟩ | ⟨rfl, rfl⟩ | ⟨rfl, rfl⟩ := h
    · exact exec_direct (op := .clc) (by decide) (by decide) rfl
    · exact exec_direct (op := .sec) (by decide) (by decide) rfl
    · exact exec_direct (op := .cli) (by decide) (by decide) rfl
    · exact exec_direct (op := .sei) (by decide) (by decide) rfl
    · exact exec_direct (op := .cld) (by decide) (by decide) rfl
    · exact exec_direct (op := .sed) (by decide) (by decide) rfl
    · exact exec_direct (op := .clv) (by decide) (by decide) rfl
  obtain ⟨t, hexec, hends, hbus, -⟩ := hflag
  exact ⟨t, hexec, hends, hbus⟩

/-! ### Branches (R380 to R388) -/

/-- The target of a branch is counted from its offset byte, as integers modulo 65536 (R380). -/
theorem branch_target_eq (a : Word) (o : Byte) : a + o.sext + 1 = BitVec.ofInt 16 (a.toNat + o.toInt + 1) :=
  Word.add_sext_eq a o 1

/-- The cycle for a target on another page. -/
theorem bit_hi_ne (a b : Word) : bit (a.hi != b.hi) = if a.toNat / 256 = b.toNat / 256 then 0 else 1 := by
  by_cases h : a.hi = b.hi
  · rw [if_pos ((Word.hi_eq_iff a b).mp h), h, bne_self_eq_false, bit, if_neg Bool.false_ne_true]
  · rw [if_neg (h ∘ (Word.hi_eq_iff a b).mpr), bne_iff_ne.mpr h, bit, if_pos rfl]

/-- Of a branch: the read of the offset, then the target and the cycles where it is taken. -/
theorem branch_inline (cond : Flags → Bool) (d : Desc) (o : Byte) (a : Word) (s : State) :
    let target : Word := BitVec.ofInt 16 (a.toNat + o.toInt + 1)
    branch cond d (.inline o a) s = if cond s.flags then
      { recordRead a o s with
        pc := target
        owed := s.owed + 1 + (if a.toNat / 256 = target.toNat / 256 then 0 else 1) }
      else recordRead a o s := by
  intro target
  have htarget : target = a + o.sext + 1 := (branch_target_eq a o).symm
  rw [← bit_hi_ne, htarget]
  rfl

/-- The operand of a branch is the byte at PC - 1 (R280). -/
theorem place_rel {i : Instr} (h : i.operand.mode = .rel) (s : State) :
    i.place s = .inline (i.operandByte s) (s.pc - 1) := by
  rw [Instr.operandByte, Instr.place]
  cases ho : i.operand
  case rel o => rfl
  all_goals
    rw [ho] at h
    cases h

/-- Settles O26: the body of the row's operation is `branch_inline`. -/
theorem branchesFollowTheirFlag : Obligations.BranchesFollowTheirFlag := by
  intro i s cond h o a target
  have hop : ∃ op ∈ branchOps, i.Is op ∧ cond = branchTaken op s.flags := by
    obtain h | h | h | h | h | h | h | h := h <;> exact ⟨_, by decide, h⟩
  obtain ⟨op, hop, his, rfl⟩ := hop
  have hplace : i.place s = .inline o a := place_rel (Operation.rows_branch hop _ his) s
  obtain ⟨t, hexec, hends, hbus, -⟩ := exec_direct his (List.mem_append_left _ hop) (s := s) rfl
  rw [opBody_of_branch hop, hplace, branch_inline] at hends hbus
  refine ⟨t, hexec, hplace, ?_, ?_⟩
  · rw [hbus]
    split <;> rfl
  · split at hends
    · rw [if_pos ‹_›]
      exact hends
    · rw [if_neg ‹_›]
      exact hends

/-! ### What the stack holds after a push (R16, R35) -/

/-- A stack address lies in RAM. -/
theorem stackAddr_lt (sp : Byte) : (stackAddr sp).toNat < 0x2000 := by
  have := sp.isLt
  rw [stackAddr_toNat]
  omega

/-- Two stack slots are one byte of memory only for one SP. -/
theorem sameByte_stackAddr {p q : Byte} (h : sameByte (stackAddr p) (stackAddr q)) : p = q := by
  have hp := stackAddr_toNat p
  have hq := stackAddr_toNat q
  have := p.isLt
  have := q.isLt
  apply BitVec.eq_of_toNat_eq
  obtain h | ⟨-, -, h⟩ := h
  · rw [h] at hp
    omega
  · omega

theorem push_peek {s : State} (hm : s.WritableOk) (v : Byte) : (push v s).peek (stackAddr s.sp) = v :=
  memWrite_peek hm v (.inl (stackAddr_lt s.sp)) (.inl rfl)

theorem push_sameBytesBut {s : State} (hm : s.WritableOk) (v : Byte) : SameBytesBut (stackAddr s.sp) s (push v s) :=
  memWrite_sameBytesBut hm (stackAddr s.sp) v

theorem push_writableOk {s : State} (hm : s.WritableOk) (v : Byte) : (push v s).WritableOk :=
  memWrite_writableOk hm (stackAddr s.sp) v

/-- A push changes no byte but that of its slot and its mirrors. -/
theorem push_frame {s : State} (hm : s.WritableOk) (v : Byte) {b : Word} (hb : oracleAddr b = false)
    (hne : ¬ sameByte (stackAddr s.sp) b) : (push v s).peek b = s.peek b :=
  push_sameBytesBut hm v b hb hne fun h => absurd h (by have := stackAddr_lt s.sp; omega)

/-- What reads find after `Push16`. -/
theorem push16_reads {s : State} (hm : s.WritableOk) (w : Word) :
    (push16 w s).peek (stackAddr s.sp) = w.hi ∧ (push16 w s).peek (stackAddr (s.sp - 1)) = w.lo ∧
      ∀ b : Word, oracleAddr b = false → ¬ sameByte (stackAddr s.sp) b → ¬ sameByte (stackAddr (s.sp - 1)) b →
        (push16 w s).peek b = s.peek b := by
  have hm' := push_writableOk hm w.hi
  have hsp : (push w.hi s).sp = s.sp - 1 := by rw [push_eq]
  have hne : ¬ sameByte (stackAddr (s.sp - 1)) (stackAddr s.sp) := fun h =>
    (stack_slots_ne s.sp).1 (congrArg BitVec.toNat (sameByte_stackAddr h))
  have hframe {b : Word} (hb : oracleAddr b = false) (h : ¬ sameByte (stackAddr (s.sp - 1)) b) :
      (push16 w s).peek b = (push w.hi s).peek b := push_frame hm' w.lo hb (hsp.symm ▸ h)
  exact ⟨(hframe (oracleAddr_stackAddr _) hne).trans (push_peek hm w.hi), hsp ▸ push_peek hm' w.lo,
    fun b hb h h' => (hframe hb h').trans (push_frame hm w.hi hb h)⟩

/-! ### PHA, PHP, PLA and PLP (R394 to R397) -/

theorem EndsAs.ram {i : Instr} {s t u : State} (h : EndsAs i s t u) : t.ram = u.ram := by rw [h]

/-- A row that pushes `v` and does nothing else. -/
theorem exec_push {i : Instr} {op : Operation} (h : i.Is op) (hop : op ∈ directOps) {s : State} {v : Byte}
    (hbody : opBody op (desc i.opcode) (i.place s) s = push v s) (hm : s.WritableOk) :
    ∃ t, exec i s = .next t ∧ EndsAs i s t { s with sp := s.sp - 1, ram := t.ram } ∧
      t.bus = .write (stackAddr s.sp) v :: s.bus ∧ t.peek (stackAddr s.sp) = v ∧ SameBytesBut (stackAddr s.sp) s t := by
  obtain ⟨t, hexec, hends, hbus, -⟩ := exec_direct h hop hbody
  refine ⟨t, hexec, ?_, ?_, (hends.peek (oracleAddr_stackAddr _)).trans (push_peek hm v),
    fun b hb hne hhigh => (hends.peek hb).trans (push_sameBytesBut hm v b hb hne hhigh)⟩
  · rw [hends.ram]
    rw [push_eq] at hends ⊢
    exact hends
  · rw [hbus, push_eq]

/-- Settles O33: the pushes by `exec_push`, the pulls by `pull_eq`. -/
theorem pushesAndPulls : Obligations.PushesAndPulls := by
  refine fun s hmem => ⟨fun i v h => ?push, ?pla, ?plp⟩
  case push =>
    obtain ⟨rfl, rfl⟩ | ⟨rfl, rfl⟩ := h
    · exact exec_push (op := .pha) (by decide) (by decide) rfl hmem.writable
    · exact exec_push (op := .php) (by decide) (by decide) (congrArg (push · s) (s.flags.pack_eq true)) hmem.writable
  case pla =>
    obtain ⟨t, hexec, hends, hbus, -⟩ := exec_direct (i := .pla) (op := .pla) (s := s) (by decide) (by decide) rfl
    simp only [opBody, opPla, pull_eq, setA_eq] at hends hbus
    exact ⟨t, hexec, hends, hbus⟩
  case plp =>
    obtain ⟨t, hexec, hends, hbus, -⟩ := exec_direct (i := .plp) (op := .plp) (s := s) (by decide) (by decide) rfl
    simp only [opBody, opPlp, pull_eq] at hends hbus
    exact ⟨t, hexec, hends, hbus⟩

/-! ### JSR, RTS and RTI (R390 to R392) -/

theorem peek_setPc (w b : Word) (s : State) : ({ s with pc := w } : State).peek b = s.peek b := rfl

/-- Settles O28, from `push16_eq` and `push16_reads`. -/
theorem jsrPushesTheReturnAddress : Obligations.JsrPushesTheReturnAddress := by
  intro w s hmem ret
  obtain ⟨hhi, hlo, hother⟩ := push16_reads hmem.writable ret
  obtain ⟨t, hexec, hends, hbus, -⟩ := exec_direct (i := .jsr w) (op := .jsr) (s := s)
    (u := { push16 ret s with pc := w }) List.mem_cons_self (by decide) rfl
  have hpeek {b : Word} (hb : oracleAddr b = false) : t.peek b = (push16 ret s).peek b :=
    (hends.peek hb).trans (peek_setPc w b _)
  refine ⟨t, hexec, ?ends, ?bus, ?hi, ?lo, fun b hb h h' => (hpeek hb).trans (hother b hb h h')⟩
  case ends =>
    rw [hends.ram]
    rw [push16_eq] at hends ⊢
    exact hends
  case bus => rw [hbus, push16_eq]
  case hi => rw [hpeek (oracleAddr_stackAddr _), hhi]
  case lo => rw [hpeek (oracleAddr_stackAddr _), hlo]

/-- Settles O29, from `pull16_eq` and `returnFromInterrupt_eq`. -/
theorem rtsAndRtiPull : Obligations.RtsAndRtiPull := by
  refine fun s => ⟨?rts, ?rti⟩
  case rts =>
    obtain ⟨t, hexec, hends, hbus, -⟩ := exec_direct (i := .rts) (op := .rts) (s := s) (by decide) (by decide) rfl
    simp only [opBody, opRts, pull16_eq] at hends hbus
    exact ⟨t, hexec, hends, hbus⟩
  case rti =>
    obtain ⟨t, hexec, hends, hbus, -⟩ := exec_direct (i := .rti) (op := .rti) (s := s) (by decide) (by decide) rfl
    simp only [opBody, opRti, returnFromInterrupt_eq] at hends hbus
    exact ⟨t, hexec, hends, hbus⟩

theorem EndsAs.registers {i : Instr} {s t u : State} (h : EndsAs i s t u) :
    t.pc = u.pc ∧ t.sp = u.sp ∧ t.a = u.a ∧ t.x = u.x ∧ t.y = u.y ∧ t.flags = u.flags := by
  rw [h]
  exact ⟨rfl, rfl, rfl, rfl, rfl, rfl⟩

/-- Settles O30: RTS finds the two bytes where JSR put them. -/
theorem jsrThenRtsReturns : Obligations.JsrThenRtsReturns := by
  intro w pc a x y f s hmem
  obtain ⟨t, hjsr, hends, -, hhi, hlo, -⟩ := jsrPushesTheReturnAddress w s hmem
  obtain ⟨-, hsp, -⟩ := hends.registers
  obtain ⟨⟨u, hrts, hends', -⟩, -⟩ := rtsAndRtiPull { t with pc := pc, a := a, x := x, y := y, flags := f }
  obtain ⟨hpc', hsp', hregisters⟩ := hends'.registers
  refine ⟨t, u, hjsr, hrts, ?_, ?_, hregisters⟩
  · have h1 : t.sp + 1 = s.sp - 1 := by rw [hsp]; simp only; bv_omega
    have h2 : t.sp + 2 = s.sp := by rw [hsp]; simp only; bv_omega
    calc u.pc
      _ = (t.peek (stackAddr (t.sp + 2))).pair (t.peek (stackAddr (t.sp + 1))) + 1 := hpc'
      _ = (s.pc - 1).hi.pair (s.pc - 1).lo + 1 := by rw [h1, h2, hhi, hlo]
      _ = s.pc := by rw [Word.pair_hi_lo, BitVec.sub_add_cancel]
  · calc u.sp
      _ = t.sp + 2 := hsp'
      _ = s.sp := by rw [hsp]; exact BitVec.sub_add_cancel _ _

/-! ### BRK (R393) -/

/-- Settles O32, from `opBrk_eq` and what an entry leaves in RAM. -/
theorem brkEntersThroughTheIrqVector : Obligations.BrkEntersThroughTheIrqVector := by
  intro s hmem ret p
  obtain ⟨t, hexec, hends, hbus, -⟩ := exec_direct (i := .brk) (op := .brk) (s := s) (by decide) (by decide) rfl
  have hi : (s.flags.i || Config.brkSetsI) = if Config.brkSetsI then true else s.flags.i := by
    cases Config.brkSetsI <;> simp
  simp only [opBody, opBrk_eq, Flags.pack_eq, hi] at hends hbus
  refine ⟨t, hexec, ?_, hbus, entryRam_reads hmem.writable.1 hends.ram ?_ ?_ ?_⟩
  · rw [hends.ram]
    exact hends
  all_goals rw [hends]

end Sys2Proof.Machine

/-!
PROOFS. The unofficial operations (spec/44_unofficial.md R430, R435 to R452): the read-modify-write ones with an ALU
part, the ones on an immediate byte, and the unsupported rows.
-/
namespace Sys2Proof.Machine

/-! ### Read-modify-write with an ALU part (R435 to R440) -/

/-- The operations that store a function of their operand and then apply an ALU operation to what they stored. -/
def aluRmwOps : List Operation := [.dcp, .isc, .slo, .rla, .sre, .rra]

/-- The ALU part of such an operation, for the operand byte `m` and the stored result `r` (the last case is RRA). -/
def aluPart (op : Operation) (m r : Byte) (s : State) : State :=
  match op with
  | .dcp => compare s.a r s
  | .isc => subC r s
  | .slo => setA (s.a ||| r) (setC (m.getLsbD 7) s)
  | .rla => setA (s.a &&& r) (setC (m.getLsbD 7) s)
  | .sre => setA (s.a ^^^ r) (setC (m.getLsbD 0) s)
  | _ => addC r (setC (m.getLsbD 0) s)

/-- "then apply their ALU part to the written result" (R430). -/
theorem opBody_of_aluRmw {op : Operation} (h : op ∈ aluRmwOps) (d : Desc) (p : Place) (s : State) :
    let q := operandRead p s
    let r := rmwResult op q.1 q.2.flags.c
    opBody op d p s = aluPart op q.1 r (operandWrite d.rmw p q.1 r q.2) := by
  cases op
  case dcp | isc | slo | rla | sre | rra => rfl
  all_goals exact absurd h (by decide)

theorem aluPart_keepsCounters {op : Operation} (h : op ∈ aluRmwOps) (m r : Byte) : KeepsCounters (aluPart op m r) := by
  intro s o sc b d
  cases op
  case dcp | isc | slo | rla | sre | rra => rfl
  all_goals exact absurd h (by decide)

/-- The ALU part writes A and the flags, and looks at nothing else. -/
theorem aluPart_eq {op : Operation} (h : op ∈ aluRmwOps) (m r : Byte) {s u : State} (ha : u.a = s.a)
    (hf : u.flags = s.flags) :
    aluPart op m r u = { u with a := (aluPart op m r s).a, flags := (aluPart op m r s).flags } := by
  cases u
  subst ha hf
  cases op
  case dcp | isc | slo | rla | sre | rra => rfl
  all_goals exact absurd h (by decide)

/-- They have no accumulator form. -/
theorem Operation.rows_aluRmw {op : Operation} (h : op ∈ aluRmwOps) : op ∈ rmwOps ∧ ∀ p ∈ op.rows, p.2 ≠ .acc := by
  revert op; decide

/-- Such a row makes the two writes and ends with A and the flags of the ALU part on the state before it. -/
theorem exec_aluRmw {i : Instr} {op : Operation} (h : i.Is op) (hop : op ∈ aluRmwOps) (s : State) :
    let m := i.operandByte s
    let r := rmwResult op m s.flags.c
    let u := aluPart op m r s
    ∃ (a : Word) (t : State), i.place s = .mem a ∧ exec i s = .next t ∧
      EndsAs i s t { memWrite a r (memWrite a m s) with a := u.a, flags := u.flags } ∧
      t.bus = .write a r :: .write a m :: .read a m :: (i.operand.pointerReads s ++ s.bus) := by
  intro m r u
  obtain ⟨hrmw, hmode⟩ := Operation.rows_aluRmw hop
  obtain ⟨a, t, hplace, hexec, hends, hbus⟩ := exec_rmw_endsAs h hrmw (hmode _ h) (finish := aluPart op)
    (opBody_of_aluRmw hop) (aluPart_keepsCounters hop) s
  rw [aluPart_eq hop m r (s := s) (by simp) (by simp)] at hends
  exact ⟨a, t, hplace, hexec, hends, hbus⟩

/-! ### The ALU parts as numbers -/

/-- A new value of A with a carry of its own. -/
theorem setA_setC_eq (v : Byte) (c : Bool) (s : State) :
    setA v (setC c s) = { s with a := v, flags := { s.flags.zn v with c := c } } := by
  rw [setA_eq]
  rfl

theorem bit_bit0 (m : Byte) : bit (m.getLsbD 0) = m.toNat % 2 := by
  revert m; decide

/-- RRA adds with the bit rotated out as carry-in (R440). -/
theorem addC_setC_bit0_eq (m r : Byte) (s : State) :
    let v := s.a + r + BitVec.ofNat 8 (m.toNat % 2)
    addC r (setC (m.getLsbD 0) s) = { s with
      a := v
      flags := { s.flags.zn v with
        c := decide (255 < s.a.toNat + r.toNat + m.toNat % 2)
        v := decide (s.a.toInt + r.toInt + (m.toNat % 2 : Nat) < -128 ∨
          127 < s.a.toInt + r.toInt + (m.toNat % 2 : Nat)) } } := by
  rw [← bit_bit0, addC_eq]
  rfl

/-- Settles O36: the row by `exec_aluRmw`, its result and its ALU part as numbers, the reads by `EndsAs.stored`. -/
theorem unofficialReadModifyWrite : Obligations.UnofficialReadModifyWrite := by
  intro i s r a' f hmem m c h
  have hop : ∃ op ∈ aluRmwOps, i.Is op ∧ r = rmwResult op m s.flags.c ∧
      aluPart op m r s = { s with a := a', flags := f } := by
    obtain ⟨his, hr, rfl, rfl⟩ | ⟨his, hr, rfl, rfl⟩ | ⟨his, hr, rfl, rfl⟩ | ⟨his, hr, rfl, rfl⟩ |
      ⟨his, hr, rfl, rfl⟩ | ⟨his, hr, rfl, rfl⟩ := h
    · exact ⟨.dcp, by decide, his, hr, compare_eq s.a r s⟩
    · exact ⟨.isc, by decide, his, hr, subC_eq r s⟩
    · rw [← Byte.bit7]
      exact ⟨.slo, by decide, his, hr.trans (shiftLeft_eq m).symm, setA_setC_eq _ _ s⟩
    · rw [← Byte.bit7]
      exact ⟨.rla, by decide, his, hr.trans (rotateLeft_eq m _).symm, setA_setC_eq _ _ s⟩
    · rw [← Byte.bit0]
      exact ⟨.sre, by decide, his, hr.trans (shiftRight_eq m).symm, setA_setC_eq _ _ s⟩
    · exact ⟨.rra, by decide, his, hr.trans (rotateRight_eq m _).symm, addC_setC_bit0_eq m r s⟩
  obtain ⟨op, hop, his, rfl, halu⟩ := hop
  obtain ⟨a, t, hplace, hexec, hends, hbus⟩ := exec_aluRmw his hop s
  rw [halu] at hends
  exact ⟨a, t, hplace, hexec, hends, hbus, hends.stored hmem fun _ => rfl⟩

/-! ### ANC, ALR, ARR and AXS (R441 to R444) -/

/-- ARR on the byte `m`: the rotated conjunction, with C and V from its bits 6 and 5. -/
def rotateAnd (m : Byte) (s : State) : State :=
  let r := rotateRight (s.a &&& m) s.flags.c
  { setA r s with flags := { s.flags.setZN r with c := r.getLsbD 6, v := r.getLsbD 6 ^^ r.getLsbD 5 } }

theorem rotateAnd_eq (m : Byte) (s : State) :
    let r : Byte := BitVec.ofNat 8 ((s.a &&& m).toNat / 2 + 128 * if s.flags.c then 1 else 0)
    rotateAnd m s = { s with
      a := r
      flags := { s.flags.zn r with
        c := decide (64 ≤ r.toNat % 128), v := decide (64 ≤ r.toNat % 128) != decide (32 ≤ r.toNat % 64) } } := by
  intro r
  have hr : r = rotateRight (s.a &&& m) s.flags.c := (rotateRight_eq _ _).symm
  rw [← Byte.bit6, ← Byte.bit5, ← Flags.setZN_eq, hr]
  rfl

/-- AXS on the byte `m`: an integer difference, which is not negative where there is no borrow. -/
def subtractFromAnd (m : Byte) (s : State) : State :=
  let diff : Int := (s.a &&& s.x).toNat - m.toNat
  setC (decide (diff ≥ 0)) (setX (BitVec.ofInt 8 diff) s)

/-- The difference of two bytes, taken as integers. -/
theorem ofInt_toNat_sub (v m : Byte) : BitVec.ofInt 8 ((v.toNat : Int) - m.toNat) = v - m := by
  rw [Int.sub_eq_add_neg, BitVec.ofInt_add, BitVec.ofInt_neg, BitVec.ofInt_natCast, BitVec.ofInt_natCast,
    BitVec.ofNat_toNat, BitVec.ofNat_toNat, BitVec.setWidth_eq, BitVec.setWidth_eq, BitVec.sub_eq_add_neg]

theorem subtractFromAnd_eq (m : Byte) (s : State) :
    let x' : Byte := (s.a &&& s.x) - m
    subtractFromAnd m s = { s with
      x := x', flags := { s.flags.zn x' with c := decide (m.toNat ≤ (s.a &&& s.x).toNat) } } := by
  intro x'
  have hc : decide (((s.a &&& s.x).toNat : Int) - m.toNat ≥ 0) = decide (m.toNat ≤ (s.a &&& s.x).toNat) :=
    decide_eq_decide.mpr (Int.sub_nonneg.trans Int.ofNat_le)
  rw [subtractFromAnd, hc, ofInt_toNat_sub, setX_eq]
  rfl

/-- Settles O37: `exec_read_endsAs` for each of the four, with its effect as numbers. -/
theorem unofficialImmediates : Obligations.UnofficialImmediates := by
  intro i s m t' c r x'
  refine ⟨fun h => ?anc, fun h => ?alr, fun h => ?arr, fun h => ?axs⟩
  case anc =>
    rw [← Byte.bit7, ← setA_setC_eq]
    exact exec_read_endsAs (f := fun m s => setA (s.a &&& m) (setC ((s.a &&& m).getLsbD 7) s)) h (by decide)
      (fun _ _ _ => rfl) (fun _ _ _ _ _ _ => rfl) s
  case alr =>
    rw [← Byte.bit0, ← setA_setC_eq, ← shiftRight_eq]
    exact exec_read_endsAs (f := fun m s => setA (shiftRight (s.a &&& m)) (setC ((s.a &&& m).getLsbD 0) s)) h
      (by decide) (fun _ _ _ => rfl) (fun _ _ _ _ _ _ => rfl) s
  case arr =>
    rw [← rotateAnd_eq]
    exact exec_read_endsAs (f := rotateAnd) h (by decide) (fun _ _ _ => rfl) (fun _ _ _ _ _ _ => rfl) s
  case axs =>
    rw [← subtractFromAnd_eq]
    exact exec_read_endsAs (f := subtractFromAnd) h (by decide) (fun _ _ _ => rfl) (fun _ _ _ _ _ _ => rfl) s

/-! ### The unsupported rows (R445 to R452) -/

/-- Settles O11: the rows are of the unsupported class, and those raise the fault. -/
theorem unsupportedRowsFault : Obligations.UnsupportedRowsFault :=
  fun i s h => exec_unsupported i (cls_of_faulting h) s

end Sys2Proof.Machine

/-!
PROOFS. Interrupts, the fault of an unsupported opcode and stopped sessions (spec/60_exceptions.md R471 to R481, R487,
R495; spec/20_memory.md R97): which step a session takes, what an entry leaves, and what the environment can still do.
-/
namespace Sys2Proof.Machine

/-! ### Which step a session takes (R473, R487, R495) -/

theorem step_faulted {s : State} {e : FaultRecord} (h : s.status = .faulted e) :
    step s = .fault (.sessionFaulted e) := by simp only [step, h]

theorem step_cancelled {s : State} (hrun : s.status = .running) (hc : s.cancelled = true) :
    step s = .refused .sessionCancelled := by simp only [step, hrun, hc, if_true]

/-- A pending NMI is taken before anything else. -/
theorem step_nmi {s : State} (ha : s.Active) (hn : s.nmiPending = true) : step s = .next (interrupt .nmi s) := by
  obtain ⟨hrun, hc⟩ := ha
  simp [step, hrun, hc, hn]

/-- An unmasked IRQ is taken where no NMI is pending. -/
theorem step_irq {s : State} (ha : s.Active) (hn : s.nmiPending = false) (hq : s.irqPending = true)
    (hi : s.flags.i = false) : step s = .next (interrupt .irq s) := by
  obtain ⟨hrun, hc⟩ := ha
  simp [step, hrun, hc, hn, hq, hi]

/-- The fetch leaves the IRQ latch and the flags alone. -/
theorem FetchOnly.irq_masked {s t : State} (h : FetchOnly s t) : t.irqPending = s.irqPending ∧ t.flags = s.flags := by
  rw [h]
  exact ⟨rfl, rfl⟩

/-- Settles O8: the three ways on from an active session. -/
theorem interruptsComeBeforeTheFetch : Obligations.InterruptsComeBeforeTheFetch := fun s ha =>
  ⟨step_nmi ha, step_irq ha, fun hn hmasked =>
    ⟨fetchInstr s, step_fetch ha ⟨hn, hmasked⟩, fetchInstr_opcode s, (afterFetch_only _ s).irq_masked⟩⟩

/-! ### Interrupt entry (R476, R477) -/

/-- `Interrupt(k)`, written out but for the latch it clears. -/
theorem interrupt_eq (k : Interrupt) (s : State) : interrupt k s = k.clear { s with
    pc := (s.peek (k.vector + 1)).pair (s.peek k.vector)
    sp := s.sp - 3
    owed := s.owed + 7
    ram := entryRam s.sp s.pc (s.flags.statusByte false) s.ram
    bus := .read (k.vector + 1) (s.peek (k.vector + 1)) :: .read k.vector (s.peek k.vector) ::
      .write (stackAddr (s.sp - 2)) (s.flags.statusByte false) :: .write (stackAddr (s.sp - 1)) s.pc.lo ::
      .write (stackAddr s.sp) s.pc.hi :: s.bus } := by
  obtain ⟨hl, hh⟩ := k.vector_range
  rw [interrupt, takeException_eq hl hh, Flags.pack_eq]

/-- The entry pushes PC and the status byte with bit 4 = 0; every other byte reads as before. -/
theorem interrupt_reads (k : Interrupt) {s : State} (hm : s.MemoryOk) :
    (interrupt k s).peek (stackAddr s.sp) = s.pc.hi ∧ (interrupt k s).peek (stackAddr (s.sp - 1)) = s.pc.lo ∧
      (interrupt k s).peek (stackAddr (s.sp - 2)) = s.flags.statusByte false ∧
      ∀ b : Word, oracleAddr b = false → ¬ sameByte (stackAddr s.sp) b → ¬ sameByte (stackAddr (s.sp - 1)) b →
        ¬ sameByte (stackAddr (s.sp - 2)) b → (interrupt k s).peek b = s.peek b := by
  rw [interrupt_eq]
  cases k <;> exact entryRam_reads hm.writable.1 rfl rfl rfl rfl

/-- Settles O9, from `interrupt_eq` and `interrupt_reads`. -/
theorem interruptEntry : Obligations.InterruptEntry := by
  refine fun k s ha hm hdue => ⟨interrupt k s, ?step, ?state, interrupt_reads k hm⟩
  case step =>
    cases k with
    | nmi => exact step_nmi ha hdue
    | irq =>
      obtain ⟨hn, hq, hi⟩ := hdue
      exact step_irq ha hn hq hi
  case state =>
    rw [interrupt_eq]
    cases k <;> rfl

/-! ### The return from an entry (R392, R478) -/

/-- What `Unpack` gives for a pushed status byte: B is the bit 4 it was pushed with (R44, R45). -/
theorem Flags.unpack_statusByte (f : Flags) (b4 : Bool) : Flags.unpack (f.statusByte b4) = { f with b := b4 } := by
  obtain ⟨hc, hz, hi, hd, hb, -, hv, hn⟩ := f.pack_bits b4
  rw [← Flags.pack_eq, Flags.unpack, hc, hz, hi, hd, hb, hv, hn]

/-- RTI where the three bytes of an entry at `sp` are on the stack. -/
theorem rti_resumes {t : State} {sp : Byte} {ret : Word} {f : Flags} {b4 : Bool} (hsp : t.sp = sp - 3)
    (hhi : t.peek (stackAddr sp) = ret.hi) (hlo : t.peek (stackAddr (sp - 1)) = ret.lo)
    (hstatus : t.peek (stackAddr (sp - 2)) = f.statusByte b4) :
    ∃ u, exec .rti t = .next u ∧ u.pc = ret ∧ u.sp = sp ∧ u.flags = { f with b := b4 } := by
  obtain ⟨-, u, hexec, hends, -⟩ := rtsAndRtiPull t
  obtain ⟨hpc, hsp', -, -, -, hflags⟩ := hends.registers
  have h1 : t.sp + 1 = sp - 2 := by rw [hsp]; bv_omega
  have h2 : t.sp + 2 = sp - 1 := by rw [hsp]; bv_omega
  have h3 : t.sp + 3 = sp := by rw [hsp]; exact BitVec.sub_add_cancel _ _
  refine ⟨u, hexec, ?pc, hsp'.trans h3, ?flags⟩
  case pc =>
    calc u.pc
      _ = (t.peek (stackAddr (t.sp + 3))).pair (t.peek (stackAddr (t.sp + 2))) := hpc
      _ = ret := by rw [h3, h2, hhi, hlo, Word.pair_hi_lo]
  case flags =>
    calc u.flags
      _ = Flags.unpack (t.peek (stackAddr (t.sp + 1))) := hflags
      _ = { f with b := b4 } := by rw [h1, hstatus, Flags.unpack_statusByte]

/-- Settles O31: RTI finds the three bytes where the entry or BRK put them. -/
theorem entryThenRtiResumes : Obligations.EntryThenRtiResumes := by
  refine fun pc a x y f s hm => ⟨fun k => ?interrupt, ?brk⟩
  case interrupt =>
    obtain ⟨hhi, hlo, hstatus, -⟩ := interrupt_reads k hm
    have hsp : (interrupt k s).sp = s.sp - 3 := by
      rw [interrupt_eq]
      cases k <;> rfl
    exact rti_resumes hsp hhi hlo hstatus
  case brk =>
    obtain ⟨t, hbrk, hends, -, hhi, hlo, hstatus, -⟩ := brkEntersThroughTheIrqVector s hm
    obtain ⟨-, hsp, -⟩ := hends.registers
    obtain ⟨u, hrti, hresumed⟩ :=
      rti_resumes (t := { t with pc := pc, a := a, x := x, y := y, flags := f }) hsp hhi hlo hstatus
    exact ⟨t, u, hbrk, hrti, hresumed⟩

/-! ### A step on an unsupported opcode (R480, R481) -/

theorem afterFetch_unsupported {d : Desc} (h : d.cls = .unsupported) (s : State) :
    afterFetch d s = (nextByte s).2 := by rw [afterFetch, h]

/-- The fault is precise: the status, one bus read, and its draw. -/
theorem step_unsupported {s : State} (ha : s.Active) (hn : s.NoInterrupt)
    (hu : (desc (s.peek s.pc)).cls = .unsupported) :
    step s = .next { s with
      status := .faulted (.unsupportedOpcode (s.peek s.pc) s.pc)
      bus := .read s.pc (s.peek s.pc) :: s.bus
      draws := s.draws + bit (oracleAddr s.pc) } := by
  have hop := fetchInstr_opcode s
  have hcls : (fetchInstr s).cls = .unsupported := by rw [Instr.cls, hop, hu]
  rw [step_fetch ha hn, exec_unsupported _ hcls, hop, afterFetch_unsupported hu, nextByte_snd, raiseUnsupported]
  simp only [BitVec.add_sub_cancel]

/-- Settles O12: the 20 opcodes are the unsupported rows. -/
theorem unsupportedStepIsPrecise : Obligations.UnsupportedStepIsPrecise := by
  intro s ha hn hmem
  have hall : ∀ b ∈ ([0x02, 0x12, 0x22, 0x32, 0x42, 0x52, 0x62, 0x72, 0x92, 0xB2, 0xD2, 0xF2,
      0x8B, 0xAB, 0x93, 0x9F, 0x9C, 0x9E, 0x9B, 0xBB] : List Byte), (desc b).cls = .unsupported := by decide
  exact ⟨_, step_unsupported ha hn (hall _ hmem), step_faulted rfl, rfl, fun _ => rfl, rfl⟩

/-! ### The environment of a stopped session (R97, R487, R495) -/

theorem perform_cancelled {s : State} (hc : s.cancelled = true) (h : HostAction) : h.perform s = s := if_pos hc

theorem perform_active {s : State} (ha : s.Active) (h : HostAction) : h.perform s = h.act s := by
  obtain ⟨hrun, hc⟩ := ha
  simp [HostAction.perform, hrun, hc]

theorem perform_faulted {s : State} {e : FaultRecord} (hf : s.status = .faulted e) {h : HostAction}
    (hne : h ≠ .cancel) : h.perform s = s := by simp [HostAction.perform, hf, hne]

/-- `Cancel()` does the same in every session (R495). -/
theorem perform_cancel (s : State) : HostAction.perform .cancel s = cancel s := by
  cases hc : s.cancelled with
  | true => rw [perform_cancelled hc, cancel, ← hc]
  | false =>
    cases hs : s.status with
    | running => exact perform_active ⟨hs, hc⟩ .cancel
    | faulted e => simp [HostAction.perform, hc, hs]

/-- Settles O10: what `step` and an action do in each kind of session. -/
theorem stoppedSessionsStayStopped : Obligations.StoppedSessionsStayStopped :=
  ⟨fun s _ hf => ⟨step_faulted hf, fun _ => perform_faulted hf, perform_cancel s⟩,
    fun _ hc => ⟨fun hrun => step_cancelled hrun hc, perform_cancelled hc⟩, fun s _ => perform_cancel s⟩

/-! ### The NMI latch (R471) -/

/-- An action leaves the session as it is or acts on it. -/
theorem perform_eq_self_or_act (h : HostAction) (s : State) : h.perform s = s ∨ h.perform s = h.act s := by
  unfold HostAction.perform
  split
  · exact .inl rfl
  · split
    · exact .inr rfl
    · split
      · next heq => exact .inr (heq ▸ rfl)
      · exact .inl rfl

theorem scanlineTick_nmiPending (s : State) : (scanlineTick s).nmiPending = s.nmiPending := by
  unfold scanlineTick
  split
  · unfold mmc3Tick
    split <;> rfl
  · rfl

theorem ppuRead_nmiPending (addr : Nat) (s : State) : (ppuRead addr s).2.nmiPending = s.nmiPending := by
  by_cases h : addr % 0x4000 < 0x2000
  · rw [ppuRead_snd_chr s h, chrReadEffect_only]
  · rw [ppuRead_snd_high s (Nat.not_lt.mp h)]

theorem ppuWrite_nmiPending (addr : Nat) (v : Byte) (s : State) : (ppuWrite addr v s).nmiPending = s.nmiPending := by
  unfold ppuWrite
  simp only
  split
  · split <;> rfl
  · split <;> rfl

/-- While the NMI latch is set, no action but a tick that runs a step clears it. -/
theorem act_keeps_nmiPending {s : State} {h : HostAction} (hn : s.nmiPending = true)
    (hh : h ≠ .cpuTick ∨ 0 < s.owed) : (h.act s).nmiPending = true := by
  cases h with
  | cpuTick =>
    have howed : s.owed ≠ 0 := Nat.ne_of_gt (hh.resolve_left (absurd rfl))
    rw [HostAction.act, tick, if_neg howed]
    exact hn
  | triggerNmi => rfl
  | scanlineTick => exact (scanlineTick_nmiPending s).trans hn
  | ppuRead addr => exact (ppuRead_nmiPending addr s).trans hn
  | ppuWrite addr v => exact (ppuWrite_nmiPending addr v s).trans hn
  | loadRam bytes => exact hn
  | cancel => exact hn

/-- No instruction writes the NMI latch. -/
theorem exec_nmiPending {i : Instr} {s t : State} (h : exec i s = .next t) : t.nmiPending = s.nmiPending := by
  by_cases hu : i.cls = .unsupported
  · rw [exec_unsupported i hu s] at h
    cases h
    rfl
  · obtain ⟨u, -, -, hu', -, -, hnmi, -⟩ := completionAndCost i s hu
    cases h.symm.trans hu'
    exact hnmi

/-- Settles O60: the entry by `step_nmi`, the actions by `act_keeps_nmiPending`, the instructions by what O13 says. -/
theorem triggerNmiSetsTheLatch : Obligations.TriggerNmiSetsTheLatch := by
  refine ⟨fun s ha => ?set, fun s h hn hh => ?kept, fun _ _ _ => exec_nmiPending,
    fun _ _ hf => perform_faulted hf (by decide)⟩
  case set =>
    intro t
    have ht : t.Active := ha
    exact ⟨perform_active ha .triggerNmi, perform_active ht .triggerNmi, step_nmi ht rfl, rfl⟩
  case kept =>
    obtain hp | hp := perform_eq_self_or_act h s
    · rw [hp]
      exact hn
    · rw [hp]
      exact act_keeps_nmiPending hn hh

end Sys2Proof.Machine

/-!
PROOFS. The reset state and the environment's clock (spec/70_reset_and_hazards.md R520, R521, R523, R541): where a
session starts, and how a step is spread over the ticks of its cost.
-/
namespace Sys2Proof.Machine

/-! ### The reset state (R520, R521, R523) -/

/-- Settles O53: the arrays are empty, and the windows are those that NROM computes for the blank cartridge. -/
theorem resetSatisfiesTheInvariant : Obligations.ResetSatisfiesTheInvariant := by
  refine ⟨⟨?sizes, ?memory, ?windows⟩, ?coherent, ?number, ⟨?running, ?notCancelled⟩, ⟨?nmi, .inl ?irq⟩⟩
  case sizes | memory | windows => decide
  case coherent | number | running | notCancelled | nmi | irq => rfl

/-! ### A step of an active session answers -/

/-- Every instruction answers a next state: a supported one by what O13 says, an unsupported one as Faulted (R480). -/
theorem exec_answers (i : Instr) (s : State) : ∃ t, exec i s = .next t := by
  by_cases hu : i.cls = .unsupported
  · exact ⟨_, exec_unsupported i hu s⟩
  · obtain ⟨t, -, -, hexec, -⟩ := completionAndCost i s hu
    exact ⟨t, hexec⟩

/-- An active session takes the NMI, takes the IRQ or fetches, and each of them answers a next state. -/
theorem step_answers {s : State} (ha : s.Active) : ∃ t, step s = .next t := by
  cases hn : s.nmiPending with
  | true => exact ⟨_, step_nmi ha hn⟩
  | false =>
    by_cases hmasked : s.irqPending = false ∨ s.flags.i = true
    · rw [step_fetch ha ⟨hn, hmasked⟩]
      exact exec_answers _ _
    · obtain ⟨hq, hi⟩ := not_or.mp hmasked
      exact ⟨_, step_irq ha hn (Bool.eq_true_of_not_eq_false hq) (Bool.eq_false_of_not_eq_true hi)⟩

/-! ### The ticks of a step (R541) -/

theorem tick_owing {s : State} (h : 0 < s.owed) : tick s = countDown s := if_neg (Nat.ne_of_gt h)

theorem tick_stepping {s t : State} (h : s.owed = 0) (hstep : step s = .next t) : tick s = countDown t := by
  rw [tick, if_pos h, hstep]

theorem perform_cpuTick_owing {s : State} (ha : s.Active) (h : 0 < s.owed) :
    HostAction.perform .cpuTick s = countDown s := (perform_active ha .cpuTick).trans (tick_owing h)

theorem perform_cpuTick_inactive {s : State} (h : ¬ s.Active) : HostAction.perform .cpuTick s = s := by
  cases hc : s.cancelled with
  | true => exact perform_cancelled hc _
  | false =>
    cases hs : s.status with
    | running => exact absurd ⟨hs, hc⟩ h
    | faulted e => exact perform_faulted hs (by decide)

/-- As many ticks as are owed, or fewer, only count: the session stays active while it counts down. -/
theorem iterate_cpuTick_owing {s : State} {k : Nat} (ha : s.Active) (hk : k ≤ s.owed) :
    Nat.iterate (HostAction.perform .cpuTick) k s = { s with owed := s.owed - k } := by
  induction k generalizing s with
  | zero => rfl
  | succ k ih =>
    have hactive : (countDown s).Active := ha
    have hleft : k ≤ (countDown s).owed := Nat.le_sub_one_of_lt hk
    calc Nat.iterate (HostAction.perform .cpuTick) k (HostAction.perform .cpuTick s)
      _ = Nat.iterate (HostAction.perform .cpuTick) k (countDown s) := by
        rw [perform_cpuTick_owing ha (Nat.zero_lt_of_lt hk)]
      _ = { s with owed := s.owed - 1 - k } := ih hactive hleft
      _ = { s with owed := s.owed - (k + 1) } := by rw [Nat.sub_sub, Nat.add_comm 1 k]

/-- Settles O59: a tick with nothing owed runs the step that `step_answers` gives; the others count or do nothing. -/
theorem cpuTickRunsAStepThenCountsDown : Obligations.CpuTickRunsAStepThenCountsDown := by
  refine ⟨fun s => perform_cpuTick_owing, fun s ha howed => ?stepping, fun s k => iterate_cpuTick_owing,
    fun s => perform_cpuTick_inactive⟩
  case stepping =>
    obtain ⟨t, hstep⟩ := step_answers ha
    exact ⟨t, hstep, (perform_active ha .cpuTick).trans (tick_stepping howed hstep)⟩

end Sys2Proof.Machine
